-- ==== Sys2Proof/Word.lean ====
section
/-!
DEFINITION. The plain types of the model: instants, unit numbers, bytes, a lane with its residue,
and a record of four equal things (four lanes, four realms).
-/
namespace Sys2Proof

/-- An instant, in picoseconds (03 R79 gives frame periods in whole picoseconds). -/
abbrev Time := Nat

abbrev Byte := BitVec 8
abbrev RealmId := Fin 4
abbrev TileId := Fin 16
abbrev LaneId := Fin 4
abbrev PortId := Fin 16
abbrev VReg := Fin 32

def ps_per_ns : Nat := 1000
def ns (n : Nat) : Time := n * 1000
def us (n : Nat) : Time := n * 1000000
def ms (n : Nat) : Time := n * 1000000000
def sec (n : Nat) : Time := n * 1000000000000

/-- Four equal things, numbered 0 to 3: the lanes of a word, the realms of the device. -/
structure Quad (α : Type) where
  q0 : α
  q1 : α
  q2 : α
  q3 : α
  deriving DecidableEq, Repr

namespace Quad
variable {α β : Type}

def all (a : α) : Quad α := ⟨a, a, a, a⟩

def get (q : Quad α) (i : Fin 4) : α :=
  match i with
  | 0 => q.q0
  | 1 => q.q1
  | 2 => q.q2
  | 3 => q.q3

def set (q : Quad α) (i : Fin 4) (a : α) : Quad α :=
  match i with
  | 0 => { q with q0 := a }
  | 1 => { q with q1 := a }
  | 2 => { q with q2 := a }
  | 3 => { q with q3 := a }

def map (f : α → β) (q : Quad α) : Quad β := ⟨f q.q0, f q.q1, f q.q2, f q.q3⟩

def imap (f : Fin 4 → α → β) (q : Quad α) : Quad β := ⟨f 0 q.q0, f 1 q.q1, f 2 q.q2, f 3 q.q3⟩

def toList (q : Quad α) : List α := [q.q0, q.q1, q.q2, q.q3]

@[simp] theorem get_set_same (q : Quad α) (i : Fin 4) (a : α) : (q.set i a).get i = a := by
  match i with
  | 0 => rfl
  | 1 => rfl
  | 2 => rfl
  | 3 => rfl

theorem get_set_ne (q : Quad α) {i j : Fin 4} (a : α) (h : i ≠ j) : (q.set i a).get j = q.get j := by
  match i, j with
  | 0, 0 => exact absurd rfl h
  | 0, 1 => rfl
  | 0, 2 => rfl
  | 0, 3 => rfl
  | 1, 0 => rfl
  | 1, 1 => exact absurd rfl h
  | 1, 2 => rfl
  | 1, 3 => rfl
  | 2, 0 => rfl
  | 2, 1 => rfl
  | 2, 2 => exact absurd rfl h
  | 2, 3 => rfl
  | 3, 0 => rfl
  | 3, 1 => rfl
  | 3, 2 => rfl
  | 3, 3 => exact absurd rfl h

@[simp] theorem get_map (q : Quad α) (f : α → β) (i : Fin 4) : (q.map f).get i = f (q.get i) := by
  match i with
  | 0 => rfl
  | 1 => rfl
  | 2 => rfl
  | 3 => rfl

@[simp] theorem get_imap (q : Quad α) (f : Fin 4 → α → β) (i : Fin 4) :
    (q.imap f).get i = f i (q.get i) := by
  match i with
  | 0 => rfl
  | 1 => rfl
  | 2 => rfl
  | 3 => rfl

@[simp] theorem get_all (a : α) (i : Fin 4) : (all a).get i = a := by
  match i with
  | 0 => rfl
  | 1 => rfl
  | 2 => rfl
  | 3 => rfl

end Quad

/-- One lane of a data word with its 8-bit residue (08 R276); residue 0xFF marks it poisoned (R277). -/
structure Lane where
  data : BitVec 32
  res  : BitVec 8
  deriving DecidableEq, Repr

/-- One lane of an accumulator (04 Table 4-1). -/
structure AccLane where
  data : BitVec 80
  res  : BitVec 8
  deriving DecidableEq, Repr

abbrev Vec := Quad Lane
abbrev Acc := Quad AccLane

end Sys2Proof
end

