-- ==== Sys2Proof/Syntax.lean ====
section
/-!
DEFINITION. The commands the block takes: one constructor of `Instr` per row of the spec's opcode table,
in the table's order, with the row's operands. Every command carries the instant at which it happens.
-/
namespace Sys2Proof

/-- An event of a realm: its instant and the realm. -/
structure Ev where
  t : Time
  m : RealmId
  deriving DecidableEq, Repr

/-- An event of a tile: its instant, the realm and the tile. -/
structure TEv where
  t : Time
  m : RealmId
  k : TileId
  deriving DecidableEq, Repr

/-- An event of a numbered port of a realm. -/
structure PEv where
  t : Time
  m : RealmId
  p : Nat
  deriving DecidableEq, Repr

/-- A missing-edge detector of a port expires: the instant of the last BCLK edge, none where it has seen none since the enable. -/
structure EdgeEv extends PEv where
  last : Option Time
  deriving DecidableEq, Repr

/-- A frame of a network port that the Keeper takes. -/
structure PktEv extends PEv where
  bytes : List Byte
  deriving DecidableEq, Repr

/-- What answers on a module's I2C bus: the switch at 0x70, and the module at 0x50 behind it or alone. -/
structure I2cAck where
  switch : Bool
  module : Bool
  deriving DecidableEq, Repr

/-- VAON enters its range: the instant, and the realms, by number, whose M#_XO and M#_SDREF are present. -/
structure PowerOn where
  t     : Time
  xo    : BitVec 4
  sdref : BitVec 4
  deriving DecidableEq, Repr

/-- A Biluno operation: its instant, the realm whose Keeper takes it and the session it comes on
(the host session is 0xFFFF_FFFF, 12 R428). -/
structure Req where
  t    : Time
  m    : RealmId
  sess : Nat
  deriving DecidableEq, Repr

/-- The name of an object: page, index, element (12 R408). -/
structure ObjId where
  page  : Nat
  index : Nat
  elem  : Nat
  deriving DecidableEq, Repr

/-! Operands of the slots of a tile's instruction word (05 Tables 5-2 to 5-8). -/

/-- `MUL`, `MAC`, `MSU`: accumulator, V registers, broadcast bit and broadcast lane. -/
structure MulF where
  d  : Fin 8
  a  : VReg
  b  : VReg
  bb : Bool
  bl : LaneId
  deriving DecidableEq, Repr

/-- `ADD`, `SUB`. -/
structure AddF where
  d   : VReg
  a   : VReg
  b   : VReg
  sat : Bool
  deriving DecidableEq, Repr

/-- `MIN`, `MAX`. -/
structure BinF where
  d : VReg
  a : VReg
  b : VReg
  deriving DecidableEq, Repr

/-- `ABS`, `LOG2`, `EXP2`, `RCP`. -/
structure UnF where
  d : VReg
  a : VReg
  deriving DecidableEq, Repr

structure SelF where
  d : VReg
  a : VReg
  b : VReg
  p : Fin 4
  deriving DecidableEq, Repr

structure ClipF where
  d : VReg
  a : VReg
  b : VReg
  c : VReg
  deriving DecidableEq, Repr

/-- COND of `CMP` (05 Table 5-2). -/
inductive Cond where
  | eq | ne | lt | le | gt | ge
  deriving DecidableEq, Repr

/-- COMB of `CMP`. -/
inductive Comb where
  | set | and | or
  deriving DecidableEq, Repr

structure CmpF where
  p    : Fin 4
  a    : VReg
  b    : VReg
  cond : Cond
  comb : Comb
  deriving DecidableEq, Repr

/-- Address operand: register, post-modify enable and register, modulo enable and register (05 Table 5-4). -/
structure AddrF where
  a  : Fin 8
  oe : Bool
  o  : Fin 8
  me : Bool
  md : Fin 4
  deriving DecidableEq, Repr

structure LdF where
  d  : VReg
  ad : AddrF
  deriving DecidableEq, Repr

structure StF where
  s  : VReg
  ad : AddrF
  deriving DecidableEq, Repr

structure MovaF where
  d     : VReg
  acc   : Fin 8
  scl   : Fin 8
  wmask : BitVec 4
  deriving DecidableEq, Repr

structure MovvSF where
  d   : VReg
  a   : VReg
  scl : Fin 8
  deriving DecidableEq, Repr

/-- `MOVS.R` and `MOVS.W`: the V register and the special register code (05 Table 5-7). -/
structure MovsF where
  v    : VReg
  code : BitVec 7
  deriving DecidableEq, Repr

/-- Immediate `LOOP`: `n1` is the field N − 1. -/
structure LoopF where
  rot : Bool
  n1  : BitVec 16
  deriving DecidableEq, Repr

/-- Register `LOOP`. -/
structure LoopRF where
  rot  : Bool
  v    : Fin 16
  lane : LaneId
  endA : BitVec 13
  deriving DecidableEq, Repr

inductive Side where
  | x | y
  deriving DecidableEq, Repr

structure AmodF where
  side : Side
  a    : Fin 8
  oe   : Bool
  o    : Fin 8
  me   : Bool
  md   : Fin 4
  imm  : BitVec 9
  deriving DecidableEq, Repr

structure SetsclF where
  n     : Fin 8
  mode  : BitVec 2
  xsrc  : Bool
  xv    : Fin 16
  xl    : LaneId
  link  : BitVec 2
  sat   : Bool
  shift : BitVec 5
  deriving DecidableEq, Repr

/-- The slots of the instruction word (05 Table 5-1). -/
inductive Slot where
  | m | x | y | s | c
  deriving DecidableEq, Repr

/-! The operation of each slot, and the instruction word (05 Tables 5-1 to 5-8). -/

inductive MOp where
  | nop
  | mul (f : MulF) | mac (f : MulF) | msu (f : MulF)
  | add (f : AddF) | sub (f : AddF)
  | min (f : BinF) | max (f : BinF)
  | abs (f : UnF)
  | sel (f : SelF)
  | clip (f : ClipF)
  | cmp (f : CmpF)
  | log2 (f : UnF) | exp2 (f : UnF) | rcp (f : UnF)
  deriving DecidableEq, Repr

inductive XOp where
  | nop
  | ldx (f : LdF) | ldxB (f : LdF) | ldxE (f : LdF) | ldxEB (f : LdF)
  deriving DecidableEq, Repr

inductive YOp where
  | nop
  | ldy (f : LdF) | ldyB (f : LdF) | ldyD (f : LdF)
  deriving DecidableEq, Repr

inductive SOp where
  | nop
  | stx (f : StF) | sty (f : StF) | ste (f : StF) | std (f : StF)
  | mova (f : MovaF)
  | movv (f : UnF)
  | movvS (f : MovvSF)
  | movsR (f : MovsF) | movsW (f : MovsF)
  deriving DecidableEq, Repr

inductive COp where
  | nop
  | loop (f : LoopF)
  | loopR (f : LoopRF)
  | endl
  | bar (b : Fin 8)
  | amod (f : AmodF)
  | setscl (f : SetsclF)
  | yield
  | halt
  deriving DecidableEq, Repr

structure TileWord where
  m : MOp
  x : XOp
  y : YOp
  s : SOp
  c : COp
  deriving DecidableEq, Repr

/-! Operands of the commands from outside the tiles. -/

/-- An input TDM frame: the number of the FSYNC edge that closes it (of the next one, for a frame closed at period F without an
edge), whether an edge closed it and the level to which FSYNC then changed, its BCLK periods, the interval between its two
edges in M#_XO periods, and the level of DIN at the rising and at the falling BCLK edge of each period from period 0 on. -/
structure TdmIn where
  edge    : Nat
  closed  : Bool
  level   : Bool
  periods : Nat
  xo      : Nat
  din     : List (Bool × Bool)
  deriving DecidableEq, Repr

/-- The action of a SEND_TAP or GAIN write: none beyond the object's wire value. -/
abbrev Wire := List Byte

/-- One encoded reply of a partner to a forwarded operation (17 R565). -/
abbrev Replies := List (Nat × List Byte)

/-- The commands, one constructor per row of spec/opcode_table.json, in its order. `q` is a Biluno request,
`e` an event; `bytes` and `data` are octets in transmission order; the other operands are the row's own. -/
inductive Instr where
  /-- FRAME_TICK, R72. -/
  | frameTick (e : Ev)
  /-- FOREGROUND_START, R74. -/
  | foregroundStart (e : Ev)
  /-- DEADLINE, R61. -/
  | deadline (e : Ev)
  /-- NOP, R166. -/
  | nop (e : TEv) (slot : Slot) (bits : BitVec 32)
  /-- MUL, R159. -/
  | mul (e : TEv) (f : MulF)
  /-- MAC, R144. -/
  | mac (e : TEv) (f : MulF)
  /-- MSU, R169. -/
  | msu (e : TEv) (f : MulF)
  /-- ADD, R169. -/
  | add (e : TEv) (f : AddF)
  /-- SUB, R169. -/
  | sub (e : TEv) (f : AddF)
  /-- MIN, R169. -/
  | min (e : TEv) (f : BinF)
  /-- MAX, R169. -/
  | max (e : TEv) (f : BinF)
  /-- ABS, R169. -/
  | abs (e : TEv) (f : UnF)
  /-- SEL, R169. -/
  | sel (e : TEv) (f : SelF)
  /-- CLIP, R169. -/
  | clip (e : TEv) (f : ClipF)
  /-- CMP, R177. -/
  | cmp (e : TEv) (f : CmpF)
  /-- LOG2, R171. -/
  | log2 (e : TEv) (f : UnF)
  /-- EXP2, R172. -/
  | exp2 (e : TEv) (f : UnF)
  /-- RCP, R173. -/
  | rcp (e : TEv) (f : UnF)
  /-- LDX, R136. -/
  | ldx (e : TEv) (f : LdF)
  /-- LDX_B, R137. -/
  | ldxB (e : TEv) (f : LdF)
  /-- LDX_E, R606. -/
  | ldxE (e : TEv) (f : LdF)
  /-- LDX_E_B, R178. -/
  | ldxEB (e : TEv) (f : LdF)
  /-- LDY, R136. -/
  | ldy (e : TEv) (f : LdF)
  /-- LDY_B, R137. -/
  | ldyB (e : TEv) (f : LdF)
  /-- LDY_D, R155. -/
  | ldyD (e : TEv) (f : LdF)
  /-- STX, R145. -/
  | stx (e : TEv) (f : StF)
  /-- STY, R145. -/
  | sty (e : TEv) (f : StF)
  /-- STE, R76. -/
  | ste (e : TEv) (f : StF)
  /-- STD, R155. -/
  | std (e : TEv) (f : StF)
  /-- MOVA, R161. -/
  | mova (e : TEv) (f : MovaF)
  /-- MOVV, R181. -/
  | movv (e : TEv) (f : UnF)
  /-- MOVV_S, R162. -/
  | movvS (e : TEv) (f : MovvSF)
  /-- MOVS_R, R183. -/
  | movsR (e : TEv) (f : MovsF)
  /-- MOVS_W, R184. -/
  | movsW (e : TEv) (f : MovsF)
  /-- LOOP, R187. -/
  | loop (e : TEv) (f : LoopF)
  /-- LOOP_REGISTER, R189. -/
  | loopRegister (e : TEv) (f : LoopRF)
  /-- ENDL, R150. -/
  | endl (e : TEv)
  /-- BAR, R81. -/
  | bar (e : TEv) (b : Fin 8)
  /-- AMOD, R190. -/
  | amod (e : TEv) (f : AmodF)
  /-- SETSCL, R191. -/
  | setscl (e : TEv) (f : SetsclF)
  /-- YIELD, R89. -/
  | yield (e : TEv)
  /-- HALT, R63. -/
  | halt (e : TEv)
  /-- OPERATION_RESULT, R142. -/
  | operationResult (e : TEv)
  /-- BARRIER_RELEASE, R81. -/
  | barrierRelease (e : Ev) (b : Fin 8)
  /-- REPLICA_FAILED, R43. -/
  | replicaFailed (e : Ev) (i : Fin 64)
  /-- GOVERNOR_SAMPLE, R45. -/
  | governorSample (e : Ev) (samples : List Nat) (temp : Int)
  /-- MARGIN_EXHAUSTED_CLEAR, R59. -/
  | marginExhaustedClear (e : Ev)
  /-- CHARACTERISATION_SWEEP, R54. -/
  | characterisationSweep (e : Ev)
  /-- SWEEP_END, R57. -/
  | sweepEnd (e : Ev) (points : List (List Nat))
  /-- AVS_VOUT_WRITE, R596. -/
  | avsVoutWrite (t : Time) (ok : Bool)
  /-- AVS_STATUS_READ, R596. -/
  | avsStatusRead (t : Time) (ok : Bool) (fault : Bool)
  /-- STREAM_WINDOW_WRITE, R114. -/
  | streamWindowWrite (e : Ev) (master : Nat) (data : List Byte) (be : BitVec 16)
  /-- LOAD_VERIFY, R610. -/
  | loadVerify (e : Ev)
  /-- TRUNCATED, R118. -/
  | truncated (e : Ev)
  /-- LOAD_BEGIN, R119. -/
  | loadBegin (q : Req)
  /-- LOAD_ABORT, R113. -/
  | loadAbort (q : Req)
  /-- SWAP, R120. -/
  | swap (q : Req) (frame : Nat)
  /-- SWAP_CANCEL, R122. -/
  | swapCancel (q : Req)
  /-- SWAP_TAKE_EFFECT, R121. -/
  | swapTakeEffect (e : Ev)
  /-- STAGED_RECORD_WRITE, R204. -/
  | stagedRecordWrite (e : Ev) (tile : TileId)
  /-- STAMP_REWRITE, R205. -/
  | stampRewrite (e : Ev)
  /-- BUS_READ, R254. -/
  | busRead (e : Ev) (master : Nat) (addr : Nat) (beats : Nat)
  /-- BUS_WRITE, R254. -/
  | busWrite (e : Ev) (master : Nat) (addr : Nat) (vecs : List (Quad (BitVec 32) × BitVec 4))
  /-- NARROW_WRITE, R255. -/
  | narrowWrite (e : Ev) (master : Nat) (addr : Nat) (data : List Byte) (be : BitVec 16)
  /-- ATOMIC_ADD, R271. -/
  | atomicAdd (e : Ev) (master : Nat) (addr : Nat) (lanes : BitVec 4) (operand : Quad (BitVec 32))
  /-- ATOMIC_ADD_S, R271. -/
  | atomicAddS (e : Ev) (master : Nat) (addr : Nat) (lanes : BitVec 4) (operand : Quad (BitVec 32))
  /-- ATOMIC_SWAP, R271. -/
  | atomicSwap (e : Ev) (master : Nat) (addr : Nat) (lanes : BitVec 4) (operand : Quad (BitVec 32))
  /-- SCRUB_READ, R258. -/
  | scrubRead (e : Ev)
  /-- MBIST_START, R262. -/
  | mbistStart (q : Req) (mask : Nat)
  /-- MBIST_DONE, R264. -/
  | mbistDone (e : Ev) (fails : List (Nat × Nat))
  /-- ERR_INJECT, R265. -/
  | errInject (q : Req) (bank : Nat) (vec : Nat) (syms : Nat)
  /-- COUNT_CLEAR, R256. -/
  | countClear (q : Req)
  /-- POWER_STATE_WRITE, R268. -/
  | powerStateWrite (q : Req) (bank : Nat) (v : Nat)
  /-- DEEP_BANK_TRANSITION, R266. -/
  | deepBankTransition (e : Ev) (bank : Fin 64)
  /-- POISON_CLEAR, R292. -/
  | poisonClear (q : Req)
  /-- POISON_CLEAR_DONE, R292. -/
  | poisonClearDone (e : Ev)
  /-- TALLY_UNMUTE, R291. -/
  | tallyUnmute (q : Req) (chan : Nat)
  /-- SAFE_ENTER, R294. -/
  | safeEnter (q : Req)
  /-- SAFE_EXIT, R296. -/
  | safeExit (q : Req)
  /-- OVERRUN_CLEAR, R68. -/
  | overrunClear (q : Req) (tile : TileId)
  /-- FADE_END, R295. -/
  | fadeEnd (e : Ev)
  /-- TDM_INPUT_FRAME, R319. -/
  | tdmInputFrame (e : PEv) (f : TdmIn)
  /-- TDM_OUTPUT_FRAME, R311. -/
  | tdmOutputFrame (e : PEv) (edge : Nat)
  /-- PORT_ENABLE, R304. -/
  | portEnable (q : Req) (p : Nat) (v : Nat)
  /-- START_FRAMES_DONE, R316. -/
  | startFramesDone (e : PEv)
  /-- REQUALIFIED, R316. -/
  | requalified (e : PEv)
  /-- STOP_FRAMES_DONE, R316. -/
  | stopFramesDone (e : PEv)
  /-- INVALID_LIMIT_REACHED, R324. -/
  | invalidLimitReached (e : PEv)
  /-- RATE_MEASURED_UPDATE, R324. -/
  | rateMeasuredUpdate (e : PEv) (rate : Nat)
  /-- MISSING_EDGE_TIMEOUT, R322. -/
  | missingEdgeTimeout (e : EdgeEv)
  /-- BCLK_RETURN, R316. -/
  | bclkReturn (e : PEv)
  /-- REJOIN, R328. -/
  | rejoin (e : PEv)
  /-- MUTE_PIN, R330. -/
  | mutePin (e : Ev) (low : Time)
  /-- MUTE_RELEASE, R331. -/
  | muteRelease (e : Ev)
  /-- MUTE_PIN_ENABLE_WRITE, R332. -/
  | mutePinEnableWrite (q : Req) (v : Nat)
  /-- SAMPLE_RATE_WRITE, R340. -/
  | sampleRateWrite (q : Req) (v : Nat)
  /-- LOCK_WINDOW_END, R341. -/
  | lockWindowEnd (e : Ev) (count : Nat)
  /-- CYCLE_SLIP, R342. -/
  | cycleSlip (e : Ev)
  /-- GLIDE_STEP, R361. -/
  | glideStep (e : Ev)
  /-- RELOCK_SETTLE_DONE, R364. -/
  | relockSettleDone (e : Ev)
  /-- ACQUISITION_TIMEOUT, R365. -/
  | acquisitionTimeout (e : Ev)
  /-- REF_PATH_WRITE, R368. -/
  | refPathWrite (q : Req) (v : Nat)
  /-- CANDIDATE_PULSE, R346. -/
  | candidatePulse (e : Ev) (c : Fin 5) (interval : Nat) (err : Int)
  /-- CANDIDATE_LOSS, R347. -/
  | candidateLoss (e : Ev) (c : Fin 5)
  /-- CANDIDATE_QUALIFIED, R347. -/
  | candidateQualified (e : Ev) (c : Fin 5)
  /-- CAND_OFFSET_UPDATE, R348. -/
  | candOffsetUpdate (e : Ev) (offsets : List Int)
  /-- REF_LOCKED, R353. -/
  | refLocked (e : Ev)
  /-- TICK_OFFSET_WRITE, R345. -/
  | tickOffsetWrite (q : Req) (v : Int)
  /-- PHASE_ADJUST, R345. -/
  | phaseAdjust (q : Req) (v : Int)
  /-- PPS_OUT_PULSE, R357. -/
  | ppsOutPulse (e : Ev)
  /-- AUX_ENABLE_WRITE, R372. -/
  | auxEnableWrite (q : Req) (a : Nat) (v : Nat)
  /-- LINK_UP, R375. -/
  | linkUp (e : PEv)
  /-- LINK_DOWN, R375. -/
  | linkDown (e : PEv)
  /-- LINK_ENABLE_WRITE, R375. -/
  | linkEnableWrite (q : Req) (p : Nat) (v : Nat)
  /-- MODULE_ID_READ, R376. -/
  | moduleIdRead (e : PEv) (ack : I2cAck) (bytes : List Byte)
  /-- MODULE_DIAG_READ, R376. -/
  | moduleDiagRead (e : PEv) (ack : I2cAck) (bytes : List Byte)
  /-- RX_FRAME, R378. -/
  | rxFrame (e : PEv) (bytes : List Byte)
  /-- ARP_MESSAGE, R380. -/
  | arpMessage (e : PEv) (bytes : List Byte)
  /-- ARP_RETRY, R380. -/
  | arpRetry (e : PEv) (ip : Nat)
  /-- ICMP_ECHO, R380. -/
  | icmpEcho (e : PEv) (bytes : List Byte)
  /-- IGMP_QUERY, R380. -/
  | igmpQuery (e : PktEv)
  /-- PTP_EVENT_MESSAGE, R391. -/
  | ptpEventMessage (e : PEv) (bytes : List Byte)
  /-- ANNOUNCE, R393. -/
  | announce (e : PEv) (bytes : List Byte)
  /-- ANNOUNCE_TIMEOUT, R387. -/
  | announceTimeout (e : PEv)
  /-- PTP_MESSAGE_TRANSMIT, R391. -/
  | ptpMessageTransmit (e : Ev) (kind : Nat)
  /-- TIMEBASE_SECOND, R384. -/
  | timebaseSecond (e : Ev)
  /-- PPS_IN_EDGE, R385. -/
  | ppsInEdge (e : Ev)
  /-- TIME_SET, R389. -/
  | timeSet (q : Req) (seconds : Nat) (nanos : Nat)
  /-- PTP_PROFILE_WRITE, R390. -/
  | ptpProfileWrite (q : Req) (v : Nat)
  /-- PACKET_DEPARTURE, R396. -/
  | packetDeparture (e : PEv)
  /-- STREAM_ENABLE, R404. -/
  | streamEnable (q : Req) (tx : Bool) (sidx : Nat) (v : Nat)
  /-- NET_BANKS_WRITE, R403. -/
  | netBanksWrite (q : Req) (v : Nat)
  /-- READ, R413. -/
  | read (q : Req) (obj : ObjId) (start : Nat) (count : Nat)
  /-- WRITE, R423. -/
  | write (q : Req) (obj : ObjId) (v : List Byte) (ramp : Option Nat)
  /-- GAIN_CHANGE, R214. -/
  | gainChange (q : Req) (obj : ObjId) (v : List Byte) (ramp : Option Nat)
  /-- SEND_TAP_WRITE, R219. -/
  | sendTapWrite (q : Req) (obj : ObjId) (v : List Byte)
  /-- SELECTOR_WRITE, R221. -/
  | selectorWrite (q : Req) (obj : ObjId) (v : List Byte)
  /-- WRITE_AT, R434. -/
  | writeAt (q : Req) (obj : ObjId) (frame : Nat) (v : List Byte) (ramp : Option Nat)
  /-- STAMPED_WRITE_DUE, R434. -/
  | stampedWriteDue (e : Ev)
  /-- SUBSCRIBE, R441. -/
  | subscribe (q : Req) (obj : ObjId) (kind : Nat) (rate : Nat) (span : Nat)
  /-- UNSUBSCRIBE, R442. -/
  | unsubscribe (q : Req) (id : Nat)
  /-- OPEN, R428. -/
  | opOpen (q : Req) (slot : Nat) (nonce : List Byte) (origin : Nat)
  /-- CLOSE, R430. -/
  | close (q : Req)
  /-- STREAM, R445. -/
  | stream (q : Req) (offset : Nat) (data : List Byte)
  /-- FORWARD_REPLY, R565. -/
  | forwardReply (e : Ev) (replies : List Byte)
  /-- FORWARD_TIMEOUT, R566. -/
  | forwardTimeout (e : Ev)
  /-- SESSION_TIMEOUT, R430. -/
  | sessionTimeout (e : Ev) (sid : Nat)
  /-- SHED_WINDOW, R439. -/
  | shedWindow (e : Ev) (busy : Nat)
  /-- CHANGE_NOTIFY, R441. -/
  | changeNotify (e : Ev) (sub : Nat)
  /-- METER_NOTIFY, R441. -/
  | meterNotify (e : Ev) (sub : Nat)
  /-- EVENT_NOTIFY, R444. -/
  | eventNotify (e : Ev) (sub : Nat)
  /-- KEY_WRITE, R427. -/
  | keyWrite (q : Req) (obj : ObjId) (v : List Byte)
  /-- BILUNO_PORT_WRITE, R446. -/
  | bilunoPortWrite (q : Req) (v : Nat)
  /-- FIXED_REQUEST_WRITE, R53. -/
  | fixedRequestWrite (q : Req) (v : Nat)
  /-- LL_QUERY, R243. -/
  | llQuery (q : Req) (src : Nat) (dst : Nat)
  /-- COUNTERS_CLEAR, R453. -/
  | countersClear (q : Req)
  /-- MODE_REQUEST, R547. -/
  | modeRequest (q : Req) (v : Nat)
  /-- REALM_MODE_CHANGE, R546. -/
  | realmModeChange (e : Ev)
  /-- REALM_START, R552. -/
  | realmStart (q : Req)
  /-- REALM_STOP, R549. -/
  | realmStop (q : Req)
  /-- REALM_STOP_COMPLETE, R549. -/
  | realmStopComplete (e : Ev)
  /-- REALM_RESET, R551. -/
  | realmReset (q : Req)
  /-- KEEPER_READY, R468. -/
  | keeperReady (e : Ev)
  /-- KC_PATCH_APPLY, R471. -/
  | kcPatchApply (e : Ev) (master : Nat) (v : Nat)
  /-- PATCH_CHECK_DONE, R472. -/
  | patchCheckDone (e : Ev)
  /-- WATCHDOG_EXPIRY, R474. -/
  | watchdogExpiry (e : Ev)
  /-- SECTOR_WRITE, R480. -/
  | sectorWrite (e : Ev) (master : Nat) (n : Nat) (reg : Nat) (v : Nat)
  /-- REGISTER_WRITE, R12. -/
  | registerWrite (e : Ev) (master : Nat) (addr : Nat) (v : BitVec 32)
  /-- BUS_QOS_AGEING, R483. -/
  | busQosAgeing (e : Ev)
  /-- BUS_WATCH, R488. -/
  | busWatch (e : Ev)
  /-- MASTER_RESET_COMPLETE, R490. -/
  | masterResetComplete (e : Ev) (master : Nat)
  /-- IC_VEC_READ, R496. -/
  | icVecRead (e : Ev)
  /-- IC_EOI_WRITE, R498. -/
  | icEoiWrite (e : Ev) (v : BitVec 32)
  /-- IC_RAISE_WRITE, R493. -/
  | icRaiseWrite (e : Ev) (v : BitVec 32)
  /-- XSPI_READ, R506. -/
  | xspiRead (t : Time) (op : BitVec 16) (addr : BitVec 32) (ctl : Nat) (clocked : Nat)
  /-- XSPI_WRITE, R506. -/
  | xspiWrite (t : Time) (op : BitVec 16) (addr : BitVec 32) (ctl : Nat) (data : List Byte)
  /-- READ_STATUS, R512. -/
  | readStatus (t : Time)
  /-- READ_ID, R503. -/
  | readId (t : Time)
  /-- POSTED_WRITE_DRAIN, R512. -/
  | postedWriteDrain (e : Ev)
  /-- APERTURE_TIMEOUT, R27. -/
  | apertureTimeout (e : Ev)
  /-- OCTAL_SWITCH, R501. -/
  | octalSwitch (t : Time) (v : Bool)
  /-- MB_BUFFER_WRITE, R516. -/
  | mbBufferWrite (t : Time) (box : Fin 17) (off : Nat) (data : List Byte)
  /-- MB_DOORBELL, R516. -/
  | mbDoorbell (t : Time) (box : Fin 17) (seq : Nat)
  /-- RESULT_READ, R516. -/
  | resultRead (t : Time) (box : Fin 17) (off : Nat) (len : Nat)
  /-- MAILBOX_REPLY, R517. -/
  | mailboxReply (t : Time) (box : Fin 17)
  /-- NOTIFY_PLACED, R521. -/
  | notifyPlaced (e : Ev)
  /-- DEVICE_MAILBOX_OPERATION, R522. -/
  | deviceMailboxOperation (t : Time)
  /-- HH_IVEC_READ, R525. -/
  | hhIvecRead (t : Time)
  /-- HH_EOI_WRITE, R526. -/
  | hhEoiWrite (t : Time) (v : BitVec 32)
  /-- DEV_COPY_REFRESH, R409. -/
  | devCopyRefresh (t : Time)
  /-- HS_RST_N, R26. -/
  | hsRstN (t : Time)
  /-- HUB_READY, R502. -/
  | hubReady (t : Time)
  /-- WAKE_QUALIFIED, R529. -/
  | wakeQualified (t : Time) (src : Nat)
  /-- AON_TIMER_EXPIRY, R530. -/
  | aonTimerExpiry (t : Time)
  /-- VCORE_GOOD_WAKE, R545. -/
  | vcoreGoodWake (t : Time)
  /-- DEV_MODE_REQUEST, R542. -/
  | devModeRequest (t : Time) (v : Nat)
  /-- POWER_DOWN_START, R543. -/
  | powerDownStart (t : Time)
  /-- POWER_DOWN_STEP, R539. -/
  | powerDownStep (t : Time)
  /-- RAIL_GOOD, R537. -/
  | railGood (t : Time) (rail : Nat)
  /-- POWER_UP_STEP, R537. -/
  | powerUpStep (t : Time)
  /-- RAIL_TIMEOUT, R538. -/
  | railTimeout (t : Time) (rail : Nat)
  /-- SUPPLY_FAULT, R545. -/
  | supplyFault (t : Time) (rail : Nat)
  /-- POWER_ON_RESET, R541. -/
  | powerOnReset (t : PowerOn)
  /-- VAON_REMOVED, R542. -/
  | vaonRemoved (t : Time)
  /-- KEY_HASH_BURN, R466. -/
  | keyHashBurn (t : Time) (hash : List Byte)
  /-- IDENTITY_PROVE, R465. -/
  | identityProve (t : Time) (challenge : List Byte)
  /-- PAIR_MODE_WRITE, R560. -/
  | pairModeWrite (q : Req) (v : Nat)
  /-- BEACON_SEND, R570. -/
  | beaconSend (e : Ev)
  /-- BEACON_RECEIVED, R571. -/
  | beaconReceived (e : Ev) (src : Nat) (bytes : List Byte)
  /-- PARTNER_LOST, R574. -/
  | partnerLost (e : Ev)
  /-- TAKE, R576. -/
  | take (q : Req)
  /-- PAIR_TAKE_EDGE, R576. -/
  | pairTakeEdge (e : Ev) (width : Nat)
  /-- TAKEOVER_BEGIN, R577. -/
  | takeoverBegin (e : Ev)
  /-- TAKEOVER_DONE, R577. -/
  | takeoverDone (e : Ev)
  /-- REFEREE_TAKE_REPEAT, R582. -/
  | refereeTakeRepeat (e : Ev)
  /-- ARP_CACHE_AGEING, R380. -/
  | arpCacheAgeing (e : PEv) (ip : Nat)
  /-- FUSE_BURN_COMPLETE, R466. -/
  | fuseBurnComplete (t : Time) (readBack : List Byte)
  /-- RESET_INITIALISATION_DONE, R270. -/
  | resetInitialisationDone (e : Ev)
  /-- JTAG_INSTRUCTION, R29. -/
  | jtagInstruction (t : Time) (code : Nat)
  /-- REQUEST_MESSAGE, R431. -/
  | requestMessage (e : Ev) (origin : Nat) (bytes : List Byte)
  deriving DecidableEq, Repr

end Sys2Proof
end

