-- ==== Sys2Proof/WellFormed.lean ====
section
/-!
DEFINITION. Well-formed operands: every field that 05 Tables 5-2 to 5-8 and R178 to R193 mark 0 is 0, and no reserved
code. A command with other operands has no encoding; the tile meets such bits as a `NOP` that counts (05 R200).
-/
namespace Sys2Proof

/-- O is 0 when OE = 0, ME is 0 when OE = 0, M is 0 when ME = 0 (05 Table 5-4). -/
def AddrF.wf (f : AddrF) : Bool := (f.oe || (f.o == 0 && !f.me)) && (f.me || f.md == 0)

/-- A listed special register code (05 Table 5-7). -/
def codeLegal (c : BitVec 7) : Bool :=
  decide (c.toNat < 0x39) || (decide (0x40 ≤ c.toNat) && decide (c.toNat < 0x60) && c.toNat % 4 != 3)

/-- WMASK 0 is reserved (05 R180). -/
def MovaF.wf (f : MovaF) : Bool := f.wmask != 0

/-- IMM is 0 when OE = 1, the offset register 0 when OE = 0, the modulo register 0 when ME = 0 (05 R190). -/
def AmodF.wf (f : AmodF) : Bool := (if f.oe then f.imm == 0 else f.o == 0) && (f.me || f.md == 0)

/-- MODE 0 is reserved; the fields that MODE does not write are 0; LINK 0b11 is reserved where it is written
(05 R191, R193). -/
def SetsclF.wf (f : SetsclF) : Bool :=
  f.mode != 0
    && (f.mode.getLsbD 0 || (!f.xsrc && f.xv == 0 && f.xl == 0))
    && (if f.mode.getLsbD 1 then f.link != 3 else f.link == 0 && !f.sat && f.shift == 0)

def XOp.wf : XOp → Bool
  | .nop => true
  | .ldx f => f.ad.wf
  | .ldxB f => f.ad.wf
  | .ldxE f => f.ad.wf
  | .ldxEB f => f.ad.wf

def YOp.wf : YOp → Bool
  | .nop => true
  | .ldy f => f.ad.wf
  | .ldyB f => f.ad.wf
  | .ldyD f => f.ad.wf

def SOp.wf : SOp → Bool
  | .nop => true
  | .stx f => f.ad.wf
  | .sty f => f.ad.wf
  | .ste f => f.ad.wf
  | .std f => f.ad.wf
  | .mova f => f.wf
  | .movv _ => true
  | .movvS _ => true
  | .movsR f => codeLegal f.code
  | .movsW f => codeLegal f.code

def COp.wf : COp → Bool
  | .amod f => f.wf
  | .setscl f => f.wf
  | _ => true

def TileWord.wf (w : TileWord) : Bool := w.x.wf && w.y.wf && w.s.wf && w.c.wf

/-- Well-formed operands of a tile's operation; every other command's operands are all legal inputs, judged by its
meaning. -/
def Instr.wf : Instr → Bool
  | .ldx _ f => f.ad.wf
  | .ldxB _ f => f.ad.wf
  | .ldxE _ f => f.ad.wf
  | .ldxEB _ f => f.ad.wf
  | .ldy _ f => f.ad.wf
  | .ldyB _ f => f.ad.wf
  | .ldyD _ f => f.ad.wf
  | .stx _ f => f.ad.wf
  | .sty _ f => f.ad.wf
  | .ste _ f => f.ad.wf
  | .std _ f => f.ad.wf
  | .mova _ f => f.wf
  | .movsR _ f => codeLegal f.code
  | .movsW _ f => codeLegal f.code
  | .amod _ f => f.wf
  | .setscl _ f => f.wf
  | _ => true

end Sys2Proof
end

