-- ==== Sys2Proof/Decode.lean ====
section
/-!
DEFINITION. The tile instruction word: its decoder and encoder (05 R165 to R193), by which the frame loader judges the
words of an image and a tile its illegal slots. The opcode table's rows give no bits, so no command is spelled by a
word: `decodeTableWord` answers none.
-/
namespace Sys2Proof

/-- The command that a word of the opcode table spells: the table gives no row any bits. -/
def decodeTableWord (_nbits _w : Nat) : Option Instr := none

/-- Field of `w` bits at bit `lo`, the powers written out. -/
def fld (n lo w : Nat) : Nat := n / lo % w

def f32 (n : Nat) : Fin 32 := ⟨n % 32, Nat.mod_lt _ (by decide)⟩
def f16 (n : Nat) : Fin 16 := ⟨n % 16, Nat.mod_lt _ (by decide)⟩
def f8 (n : Nat) : Fin 8 := ⟨n % 8, Nat.mod_lt _ (by decide)⟩
def f4 (n : Nat) : Fin 4 := ⟨n % 4, Nat.mod_lt _ (by decide)⟩
def bit (n : Nat) : Bool := n % 2 == 1
def bitN (b : Bool) : Nat := if b then 1 else 0

/-- A value where a condition holds. -/
def guardO {α : Type} (c : Bool) (a : α) : Option α := if c then some a else none

/-! ## M slot (Table 5-2): D [26:22], A [21:17], B [16:12], C [11:7], MOD [6:0] -/

def condOf (n : Nat) : Option Cond :=
  if n = 0 then some .eq else if n = 1 then some .ne else if n = 2 then some .lt
  else if n = 3 then some .le else if n = 4 then some .gt else if n = 5 then some .ge else none

def condN : Cond → Nat
  | .eq => 0 | .ne => 1 | .lt => 2 | .le => 3 | .gt => 4 | .ge => 5

def combOf (n : Nat) : Option Comb :=
  if n = 0 then some .set else if n = 1 then some .and else if n = 2 then some .or else none

def combN : Comb → Nat
  | .set => 0 | .and => 1 | .or => 2

/-- The five fields of an M slot after its opcode. -/
structure MFields where
  d : Nat
  a : Nat
  b : Nat
  c : Nat
  md : Nat
  deriving DecidableEq, Repr

def mFields (n : Nat) : MFields :=
  ⟨fld n 4194304 32, fld n 131072 32, fld n 4096 32, fld n 128 32, fld n 1 128⟩

def mPack (op d a b c md : Nat) : Nat :=
  op * 134217728 + d * 4194304 + a * 131072 + b * 4096 + c * 128 + md

def decMul (q : MFields) : Option MulF :=
  guardO (decide (q.d < 8) && q.c == 0 && q.md % 16 == 0)
    ⟨f8 q.d, f32 q.a, f32 q.b, bit (q.md / 64), f4 (q.md / 16)⟩
def decAdd (q : MFields) : Option AddF :=
  guardO (q.c == 0 && q.md % 64 == 0) ⟨f32 q.d, f32 q.a, f32 q.b, bit (q.md / 64)⟩
def decBin (q : MFields) : Option BinF := guardO (q.c == 0 && q.md == 0) ⟨f32 q.d, f32 q.a, f32 q.b⟩
def decUn (q : MFields) : Option UnF := guardO (q.b == 0 && q.c == 0 && q.md == 0) ⟨f32 q.d, f32 q.a⟩
def decSel (q : MFields) : Option SelF :=
  guardO (q.c == 0 && decide (q.md < 4)) ⟨f32 q.d, f32 q.a, f32 q.b, f4 q.md⟩
def decClip (q : MFields) : Option ClipF := guardO (q.md == 0) ⟨f32 q.d, f32 q.a, f32 q.b, f32 q.c⟩
def decCmp (q : MFields) : Option CmpF :=
  match condOf (q.md / 16), combOf (q.md / 4 % 4) with
  | some cd, some cb =>
    guardO (decide (q.d < 4) && q.c == 0 && q.md % 4 == 0) ⟨f4 q.d, f32 q.a, f32 q.b, cd, cb⟩
  | _, _ => none

def decodeM (w : BitVec 32) : Option MOp :=
  let n := w.toNat
  let q := mFields n
  match n / 134217728 with
  | 0 => guardO (n == 0) .nop
  | 1 => (decMul q).map .mul
  | 2 => (decMul q).map .mac
  | 3 => (decMul q).map .msu
  | 4 => (decAdd q).map .add
  | 5 => (decAdd q).map .sub
  | 6 => (decBin q).map .min
  | 7 => (decBin q).map .max
  | 8 => (decUn q).map .abs
  | 9 => (decSel q).map .sel
  | 10 => (decClip q).map .clip
  | 11 => (decCmp q).map .cmp
  | 12 => (decUn q).map .log2
  | 13 => (decUn q).map .exp2
  | 14 => (decUn q).map .rcp
  | _ => none

def encMul (op : Nat) (f : MulF) : Nat := mPack op f.d.val f.a.val f.b.val 0 (bitN f.bb * 64 + f.bl.val * 16)
def encAdd (op : Nat) (f : AddF) : Nat := mPack op f.d.val f.a.val f.b.val 0 (bitN f.sat * 64)
def encBin (op : Nat) (f : BinF) : Nat := mPack op f.d.val f.a.val f.b.val 0 0
def encUn (op : Nat) (f : UnF) : Nat := mPack op f.d.val f.a.val 0 0 0

def encodeM : MOp → BitVec 32
  | .nop => 0
  | .mul f => BitVec.ofNat 32 (encMul 1 f)
  | .mac f => BitVec.ofNat 32 (encMul 2 f)
  | .msu f => BitVec.ofNat 32 (encMul 3 f)
  | .add f => BitVec.ofNat 32 (encAdd 4 f)
  | .sub f => BitVec.ofNat 32 (encAdd 5 f)
  | .min f => BitVec.ofNat 32 (encBin 6 f)
  | .max f => BitVec.ofNat 32 (encBin 7 f)
  | .abs f => BitVec.ofNat 32 (encUn 8 f)
  | .sel f => BitVec.ofNat 32 (mPack 9 f.d.val f.a.val f.b.val 0 f.p.val)
  | .clip f => BitVec.ofNat 32 (mPack 10 f.d.val f.a.val f.b.val f.c.val 0)
  | .cmp f => BitVec.ofNat 32 (mPack 11 f.p.val f.a.val f.b.val 0 (condN f.cond * 16 + combN f.comb * 4))
  | .log2 f => BitVec.ofNat 32 (encUn 12 f)
  | .exp2 f => BitVec.ofNat 32 (encUn 13 f)
  | .rcp f => BitVec.ofNat 32 (encUn 14 f)

/-! ## X and Y slots (Tables 5-4, 5-5) -/

/-- The ten bits of an address operand: register, OE, O, ME, M. -/
def addrAt (n : Nat) : AddrF := ⟨f8 (n / 128), bit (n / 64), f8 (n / 8), bit (n / 4), f4 n⟩
def addrN (f : AddrF) : Nat := f.a.val * 128 + bitN f.oe * 64 + f.o.val * 8 + bitN f.me * 4 + f.md.val

def decLd (n : Nat) : Option LdF :=
  let f : LdF := ⟨f32 (fld n 65536 32), addrAt (fld n 64 1024)⟩
  guardO (n % 64 == 0 && f.ad.wf) f
def encLd (op : Nat) (f : LdF) : Nat := op * 2097152 + f.d.val * 65536 + addrN f.ad * 64

def decodeX (w : BitVec 24) : Option XOp :=
  let n := w.toNat
  match n / 2097152 with
  | 0 => guardO (n == 0) .nop
  | 1 => (decLd n).map .ldx
  | 2 => (decLd n).map .ldxB
  | 3 => (decLd n).map .ldxE
  | 4 => (decLd n).map .ldxEB
  | _ => none

def encodeX : XOp → BitVec 24
  | .nop => 0
  | .ldx f => BitVec.ofNat 24 (encLd 1 f)
  | .ldxB f => BitVec.ofNat 24 (encLd 2 f)
  | .ldxE f => BitVec.ofNat 24 (encLd 3 f)
  | .ldxEB f => BitVec.ofNat 24 (encLd 4 f)

def decodeY (w : BitVec 24) : Option YOp :=
  let n := w.toNat
  match n / 2097152 with
  | 0 => guardO (n == 0) .nop
  | 1 => (decLd n).map .ldy
  | 2 => (decLd n).map .ldyB
  | 3 => (decLd n).map .ldyD
  | _ => none

def encodeY : YOp → BitVec 24
  | .nop => 0
  | .ldy f => BitVec.ofNat 24 (encLd 1 f)
  | .ldyB f => BitVec.ofNat 24 (encLd 2 f)
  | .ldyD f => BitVec.ofNat 24 (encLd 3 f)

/-! ## S slot (Table 5-6) -/

def decSt (n : Nat) : Option StF :=
  let f : StF := ⟨f32 (fld n 32768 32), addrAt (fld n 32 1024)⟩
  guardO (n % 32 == 0 && f.ad.wf) f
def encSt (op : Nat) (f : StF) : Nat := op * 1048576 + f.s.val * 32768 + addrN f.ad * 32

def decMova (n : Nat) : Option MovaF :=
  let f : MovaF := ⟨f32 (fld n 32768 32), f8 (fld n 4096 8), f8 (fld n 512 8), BitVec.ofNat 4 (fld n 32 16)⟩
  guardO (n % 32 == 0 && f.wf) f
def decMovv (n : Nat) : Option UnF := guardO (n % 1024 == 0) ⟨f32 (fld n 32768 32), f32 (fld n 1024 32)⟩
def decMovvS (n : Nat) : Option MovvSF :=
  guardO (n % 128 == 0) ⟨f32 (fld n 32768 32), f32 (fld n 1024 32), f8 (fld n 128 8)⟩
def decMovs (n : Nat) : Option MovsF :=
  let f : MovsF := ⟨f32 (fld n 32768 32), BitVec.ofNat 7 (fld n 256 128)⟩
  guardO (n % 256 == 0 && codeLegal f.code) f
def encMovs (op : Nat) (f : MovsF) : Nat := op * 1048576 + f.v.val * 32768 + f.code.toNat * 256

def decodeS (w : BitVec 24) : Option SOp :=
  let n := w.toNat
  match n / 1048576 with
  | 0 => guardO (n == 0) .nop
  | 1 => (decSt n).map .stx
  | 2 => (decSt n).map .sty
  | 3 => (decSt n).map .ste
  | 4 => (decSt n).map .std
  | 5 => (decMova n).map .mova
  | 6 => (decMovv n).map .movv
  | 7 => (decMovvS n).map .movvS
  | 8 => (decMovs n).map .movsR
  | 9 => (decMovs n).map .movsW
  | _ => none

def encodeS : SOp → BitVec 24
  | .nop => 0
  | .stx f => BitVec.ofNat 24 (encSt 1 f)
  | .sty f => BitVec.ofNat 24 (encSt 2 f)
  | .ste f => BitVec.ofNat 24 (encSt 3 f)
  | .std f => BitVec.ofNat 24 (encSt 4 f)
  | .mova f => BitVec.ofNat 24
      (5 * 1048576 + f.d.val * 32768 + f.acc.val * 4096 + f.scl.val * 512 + f.wmask.toNat * 32)
  | .movv f => BitVec.ofNat 24 (6 * 1048576 + f.d.val * 32768 + f.a.val * 1024)
  | .movvS f => BitVec.ofNat 24 (7 * 1048576 + f.d.val * 32768 + f.a.val * 1024 + f.scl.val * 128)
  | .movsR f => BitVec.ofNat 24 (encMovs 8 f)
  | .movsW f => BitVec.ofNat 24 (encMovs 9 f)

/-! ## C slot (Table 5-8) -/

def decLoop (n : Nat) : Option LoopF :=
  guardO (fld n 65536 8 == 0) ⟨bit (n / 524288), BitVec.ofNat 16 n⟩
def decLoopR (n : Nat) : LoopRF :=
  ⟨bit (n / 524288), f16 (fld n 32768 16), f4 (fld n 8192 4), BitVec.ofNat 13 n⟩
def decAmod (n : Nat) : Option AmodF :=
  let f : AmodF :=
    ⟨if bit (n / 524288) then .y else .x, f8 (fld n 65536 8), bit (n / 32768), f8 (fld n 4096 8), bit (n / 2048),
     f4 (fld n 512 4), BitVec.ofNat 9 n⟩
  guardO f.wf f
def decSetscl (n : Nat) : Option SetsclF :=
  let f : SetsclF :=
    ⟨f8 (fld n 131072 8), BitVec.ofNat 2 (fld n 32768 4), bit (n / 16384), f16 (fld n 1024 16), f4 (fld n 256 4),
     BitVec.ofNat 2 (fld n 64 4), bit (n / 32), BitVec.ofNat 5 n⟩
  guardO f.wf f

def decodeC (w : BitVec 24) : Option COp :=
  let n := w.toNat
  match n / 1048576 with
  | 0 => guardO (n == 0) .nop
  | 1 => (decLoop n).map .loop
  | 2 => some (.loopR (decLoopR n))
  | 3 => guardO (n % 1048576 == 0) .endl
  | 4 => guardO (fld n 8 131072 == 0) (.bar (f8 n))
  | 5 => (decAmod n).map .amod
  | 6 => (decSetscl n).map .setscl
  | 7 => guardO (n % 1048576 == 0) .yield
  | 8 => guardO (n % 1048576 == 0) .halt
  | _ => none

def sideN : Side → Nat
  | .x => 0
  | .y => 1

def encodeC : COp → BitVec 24
  | .nop => 0
  | .loop f => BitVec.ofNat 24 (1048576 + bitN f.rot * 524288 + f.n1.toNat)
  | .loopR f => BitVec.ofNat 24
      (2 * 1048576 + bitN f.rot * 524288 + f.v.val * 32768 + f.lane.val * 8192 + f.endA.toNat)
  | .endl => BitVec.ofNat 24 (3 * 1048576)
  | .bar b => BitVec.ofNat 24 (4 * 1048576 + b.val)
  | .amod f => BitVec.ofNat 24
      (5 * 1048576 + sideN f.side * 524288 + f.a.val * 65536 + bitN f.oe * 32768 + f.o.val * 4096 + bitN f.me * 2048
        + f.md.val * 512 + f.imm.toNat)
  | .setscl f => BitVec.ofNat 24
      (6 * 1048576 + f.n.val * 131072 + f.mode.toNat * 32768 + bitN f.xsrc * 16384 + f.xv.val * 1024
        + f.xl.val * 256 + f.link.toNat * 64 + bitN f.sat * 32 + f.shift.toNat)
  | .yield => BitVec.ofNat 24 (7 * 1048576)
  | .halt => BitVec.ofNat 24 (8 * 1048576)

/-! ## The word (Table 5-1): M [127:96], X [95:72], Y [71:48], S [47:24], C [23:0] -/

def slotBits (w : BitVec 128) (lo width : Nat) : Nat := w.toNat / lo % width

def bitsM (w : BitVec 128) : BitVec 32 := BitVec.ofNat 32 (slotBits w 79228162514264337593543950336 4294967296)
def bitsX (w : BitVec 128) : BitVec 24 := BitVec.ofNat 24 (slotBits w 4722366482869645213696 16777216)
def bitsY (w : BitVec 128) : BitVec 24 := BitVec.ofNat 24 (slotBits w 281474976710656 16777216)
def bitsS (w : BitVec 128) : BitVec 24 := BitVec.ofNat 24 (slotBits w 16777216 16777216)
def bitsC (w : BitVec 128) : BitVec 24 := BitVec.ofNat 24 (slotBits w 1 16777216)

def decodeWord (w : BitVec 128) : Option TileWord :=
  match decodeM (bitsM w), decodeX (bitsX w), decodeY (bitsY w), decodeS (bitsS w), decodeC (bitsC w) with
  | some m, some x, some y, some s, some c => some ⟨m, x, y, s, c⟩
  | _, _, _, _, _ => none

def encodeWord (w : TileWord) : BitVec 128 :=
  BitVec.ofNat 128
    ((encodeM w.m).toNat * 79228162514264337593543950336 + (encodeX w.x).toNat * 4722366482869645213696
      + (encodeY w.y).toNat * 281474976710656 + (encodeS w.s).toNat * 16777216 + (encodeC w.c).toNat)

end Sys2Proof
end

