-- ==== Sys2Proof/Config.lean ====
section
/-!
DEFINITION. What the spec leaves to the implementation or leaves open. An opaque constant has no body, so
nothing can be proved about its value: a claim that mentions one holds for every value it may have
(assumption log, entries 2, 4 to 7, 9, 12, 37 and 43).
-/
namespace Sys2Proof.Config

/-! Fused and ROM values (13 Table 13-14, Table 13-8; 07 R260): fixed per part, not given by the spec. -/
opaque deviceSerial : Nat
opaque macBase : Nat
opaque devicePubkey : Nat
opaque rootKeyId : Nat
opaque fwVersion : Nat
/-- REPAIR of a counting bank of a realm (07 R260). -/
opaque repair : Nat → Nat → Nat
/-- The Perindene root key named by ROOT_KEY_ID: X and Y (14 Table 14-1). -/
opaque rootKey : Nat × Nat

/-! Free values: what the spec says happens with a value that it does not state. -/

/-- A free natural number, drawn with the counter that State.free holds (12 R428, R432: session numbers,
nonces and the start frame that the Keeper chooses within its bounds). -/
opaque freeNat : Nat → Nat
/-- Whether a quotient that is not whole is taken up, by its use, numerator and denominator, where the spec states no rounding:
use 1 a word of a 2 ms fade (08 R291, R295; 02 R67), 2 T_NORM, 3 DRIFT, 4 YEARS_TO_LIMIT (02 R57, R58). -/
opaque roundsUp : Nat → Nat → Nat → Bool
/-- The step time that the fit predicts, in 10^-6 ps, from the measured points (VCORE in mV, step time in ps, temperature in
0.01 °C), a VCORE in mV and a temperature (02 R49, R56, R57: the curve shape is fused per part and not given). -/
opaque predict : List (Nat × Nat × Int) → Nat → Int → Nat
/-- What DRIFT's ppm are relative to, less one, in 10^-6 ps (02 R57: not stated), and DRIFT while no line goes through the
normalised values (fewer than two instants). -/
opaque driftBase : List (Nat × Nat) → Nat
opaque driftShort : List (Nat × Nat) → Int
/-- Whether YEARS_TO_LIMIT counts years of 365.25 days, rather than 365 (02 R58). -/
opaque julianYear : Bool
/-- The RATE_FRAC that the PI servo sets for an offset (11 R387: gains not stated), before limiting. -/
opaque servoRate : Nat → Int → Nat → Nat
/-- The steering offset that the reference loop sets (10 R353: the loop filter is not stated), in ppb. -/
opaque loopSteering : Int → Int → Nat → Int
/-- Identification and don't-fragment bit of an IPv4 packet sent (11 R382 states neither), as 17 bits, by instant and destination. -/
opaque ipIdent : Nat → Nat → Nat
/-- Where the spread-spectrum triangle of an auxiliary synthesiser starts when it is enabled (10 R370: its phase is not stated), in
10^−12 of its period, by realm and synthesiser. -/
opaque sscPhase : Nat → Nat → Nat
/-- Whether `EXP2` of y = −32, exactly 0.5, gives 1 rather than 0 (05 R172, R174). -/
opaque exp2TieUp : Bool
/-- The data bits of a lane that an operation poisons, from the word computed (08 R277: they carry no meaning). -/
opaque poisonWord : BitVec 32 → BitVec 32
opaque poisonAccWord : BitVec 80 → BitVec 80
/-- The ECDSA signature of IDENTITY_PROVE under the device identity key (13 R465). -/
opaque deviceSignature : Nat → Nat
/-- The analogue prototype of the peaking and shelving designs (06 Table 6-4, codes 17 to 19: not given), from the code, the
gain in 0.01 dB and the Q: the coefficients of s², s and 1 of its numerator and of its denominator at the design frequency
1, in units of 2^-128. -/
opaque prototype : Nat → Int → Int → (Int × Int × Int) × (Int × Int × Int)
/-- Active bus and return inputs that an image declares for a bus (06 R226: no image field, and no send that turns them
on or off). -/
opaque otherInputs : Nat → Nat → Nat
/-- Whether the SELECT record of an image at a tile and address is that of a transition selector (06 R237: no image
field). -/
opaque transition : Nat → Nat → Nat → Bool
/-- Whether an image (by its identifier) compiles a candidate for a selector object (06 R221: no image field). -/
opaque imageCandidate : Nat → Nat → Nat → Bool
/-- Whether a tap value lies in an image's tap set for a bus (06 R220: no image field). -/
opaque imageTap : Nat → Nat → Nat → Bool
/-- Which tap a binding entry of a send serves, on a bus with two taps (06 R219: no image field). -/
opaque tapOf : Nat → Nat → Nat
/-- The first tap of an image's tap set for a bus (06 R220). -/
opaque imageFirstTap : Nat → Nat → Nat
/-- DELAY_MAX or OUT_DELAY_MAX that an image compiles for an object (13 R459, R462: no image field). -/
opaque imageDelayMax : Nat → Nat → Nat

/-- What a Light List entry numbered LL_COUNT or above reads as, by its object (06 R243). -/
opaque lightAbsent : Nat → Nat

/-- A quotient whose rounding the spec leaves open: exact where it is whole. -/
def quot (use n d : Nat) : Nat := n / d + (if n % d ≠ 0 ∧ roundsUp use n d then 1 else 0)

/-! Constants the spec states. -/

/-- The guard floor, 2.00% on every shipped part (02 R46), in 0.01%. -/
def guardFloor : Nat := 200
/-- Nominal RATE_FRAC (11 R383). -/
def rateFracNominal : Nat := 1481987413
def rateFracMin : Nat := 1464511146
def rateFracMax : Nat := 1499463680
/-- The XO frequency in Hz (01 R18) and the VCO frequency in Hz (10 R335). -/
def xoHz : Nat := 49152000
def vcoHz : Nat := 983040000
/-- DIV_NOM of the two rate families in units of 2^-40 (10 R336): 10, and 1,600 ÷ 147 to the nearest 2^-40. -/
def divNom48 : Nat := 10 * 2 ^ 40
def divNom44 : Nat := (2 * 1600 * 2 ^ 40 + 147) / (2 * 147)

end Sys2Proof.Config
end

