-- ==== Sys2Proof/Machine/Tbl.lean ====
section
/-!
DEFINITION. Tables: a list of (key, value) pairs in one canonical form, keys strictly rising and no pair whose
value is the default an unlisted key reads as. Registers files, memories and the object store are tables.
-/
namespace Sys2Proof.Machine

abbrev Tbl (α : Type) := List (Nat × α)

/-- The value at a key; `d` where the key is not listed. -/
def tget {α : Type} (d : α) : Tbl α → Nat → α
  | [], _ => d
  | (j, v) :: r, k => if j = k then v else tget d r k

/-- The table without a key. -/
def tdel {α : Type} (m : Tbl α) (k : Nat) : Tbl α := m.filter (fun c => decide (c.1 ≠ k))

/-- The table without the keys from `lo` to `hi` − 1. -/
def tclear {α : Type} (m : Tbl α) (lo hi : Nat) : Tbl α :=
  m.filter (fun c => decide (c.1 < lo ∨ hi ≤ c.1))

/-- A pair inserted before the first larger key. -/
def tins {α : Type} : Tbl α → Nat → α → Tbl α
  | [], k, v => [(k, v)]
  | (j, w) :: r, k, v => if k < j then (k, v) :: (j, w) :: r else (j, w) :: tins r k v

/-- Write a value; writing the default removes the entry. -/
def tput {α : Type} [DecidableEq α] (d : α) (m : Tbl α) (k : Nat) (v : α) : Tbl α :=
  if v = d then tdel m k else tins (tdel m k) k v

/-- Change the value at a key. -/
def tmod {α : Type} [DecidableEq α] (d : α) (m : Tbl α) (k : Nat) (f : α → α) : Tbl α :=
  tput d m k (f (tget d m k))

/-- Keys strictly rising from `lo`. -/
def tsorted {α : Type} : Tbl α → Bool
  | [] => true
  | [_] => true
  | a :: b :: r => decide (a.1 < b.1) && tsorted (b :: r)

/-- The canonical form. -/
def twf {α : Type} [DecidableEq α] (d : α) (m : Tbl α) : Bool :=
  tsorted m && m.all (fun c => decide (c.2 ≠ d))

end Sys2Proof.Machine
end

