-- ==== Sys2Proof/Machine/State.lean ====
section
/-!
DEFINITION. The state of the block: every register, memory, buffer, counter, mode and pin the spec names, as plain
data, and the queue of commands. Values that the spec presents as objects (13 Tables 13-1 to 13-16 and the object
tables of the other chapters) stand in `Realm.objs` and `Hub.objs` under the object's name, unless a field below holds
them; the other fields hold what lies behind the objects.
MARKED CHOICES of this file (DESIGN CHOICE, DEDUCED or PRESUMED): log entries 13 and 14.
-/
namespace Sys2Proof.Machine

/-- Reasons the block stops. -/
inductive Fault where
  /-- No meaning raises it: the spec gives every command an effect, an error answer or none (safe). -/
  | none
  deriving DecidableEq, Repr

/-- Reasons a command has no meaning here. -/
inductive Refusal where
  /-- Raised by the dispatch alone, for a command without a meaning (safe). -/
  | notModelled (mnemonic : String)
  /-- Raised by BUS_READ, BUS_WRITE, NARROW_WRITE and REGISTER_WRITE of the Keeper for 0x8002_0000 to 0x80FF_FFFF,
  registers that only Perindene firmware reads and writes and whose effects the spec does not give (14 Table 14-2) (safe). -/
  | firmwareRegister (addr : Nat)
  deriving DecidableEq, Repr

/-! ## Tiles (04, 05) -/

/-- Where a result in flight goes, with its value (04 R142). -/
inductive Dst where
  | v (r : VReg) (mask : BitVec 4) (w : Vec)
  | acc (r : Fin 8) (w : Acc)
  /-- One part of every lane of an accumulator, written by `MOVS.W` (05 R184). -/
  | accPart (r : Fin 8) (p : Fin 3) (w : Quad (BitVec 32))
  | pred (p : Fin 4) (w : BitVec 4)
  | addr (side : Side) (r : Fin 8) (w : BitVec 24)
  | offs (side : Side) (r : Fin 8) (w : BitVec 16)
  | modu (side : Side) (r : Fin 4) (w : BitVec 16)
  /-- The bits of `mask` of a scale register take those of `w`. -/
  | scl (r : Fin 8) (mask w : BitVec 16)
  | lc (i : Fin 2) (w : BitVec 64)
  | rot (w : BitVec 4)
  /-- A store to the tile's X memory, by vector (04 R145). -/
  | memX (vec : Nat) (w : Vec)
  | memY (vec : Nat) (w : Vec)
  /-- A store to a physical exchange vector. -/
  | memE (vec : Nat) (w : Vec)
  /-- A store to a deep bank's vector. -/
  | memD (bank : Nat) (vec : Nat) (w : Vec)
  deriving DecidableEq, Repr

/-- A result in flight: `left` steps to the end of the step at which it is written, the number of the step that
issued it and the rank of its slot (04 R142, R146). -/
structure Flight where
  left  : Nat
  issue : Nat
  rank  : Nat
  dst   : Dst
  deriving DecidableEq, Repr

/-- What a tile runs (02 R63; 03 R81, R89 to R92). -/
inductive Ctx where
  | idle
  | fore (swap : Bool)
  | barrier (b : Fin 8) (swap : Bool)
  | slack (entry : Nat)
  | save (entry : Nat)
  | restore (entry : Nat)
  deriving DecidableEq, Repr

/-- What the tile keeps of a slack task (03 R89 to R94). -/
structure Task where
  /-- where the task goes on; `none` is its entry address -/
  resume   : Option Nat
  restoreDue : Bool
  /-- the current job has ended (a free task: in this frame) -/
  ended    : Bool
  /-- the frame at which the current job of a bound task started -/
  job      : Option Nat
  /-- a word of its code had an uncorrectable error since its last `YIELD` or `HALT`: its stores write poison (07 R253) -/
  damaged  : Bool
  deriving DecidableEq, Repr

def Task.fresh : Task := ⟨none, false, false, none, false⟩

/-- The architectural registers of a tile (04 Table 4-1). -/
structure Regs where
  v    : Tbl Vec
  acc  : Tbl Acc
  ax   : Tbl (BitVec 24)
  ay   : Tbl (BitVec 24)
  ox   : Tbl (BitVec 16)
  oy   : Tbl (BitVec 16)
  mx   : Tbl (BitVec 16)
  my   : Tbl (BitVec 16)
  scl  : Tbl (BitVec 16)
  lc0  : BitVec 64
  lc1  : BitVec 64
  p    : Tbl (BitVec 4)
  rot  : BitVec 4
  step : BitVec 32
  epoch : BitVec 16
  deriving DecidableEq, Repr

def Regs.reset : Regs := ⟨[], [], [], [], [], [], [], [], [], 0, 0, [], 0, 0, 0⟩

/-- A ramp record staged in a slot (06 Table 6-5, vectors 0 to 4), as the Keeper knows it. -/
structure RampRec where
  s    : Nat
  n    : Nat
  mode : Quad Bool
  l0   : Quad Int
  d    : Quad Int
  rm   : Quad Int
  fin  : Quad Int
  deriving DecidableEq, Repr

/-- What the Keeper keeps of a ramp slot: the coefficient vector it serves (its Y byte address), the frame that releases
it, the record adopted last and the one staged after it, and the words of lanes that no object drives (06 R210, R215
to R218). -/
structure Held where
  addr  : Option Nat
  /-- the vector that the slot still stores to until the first record for `addr` is adopted (06 R211, R216) -/
  dest  : Option Nat
  release : Nat
  cur   : Option RampRec
  pend  : Option RampRec
  base  : Quad (BitVec 32)
  deriving DecidableEq, Repr

def Held.free : Held := ⟨none, none, 0, none, none, Quad.all 0⟩

/-- A record of a route selector and the candidates it fades between; `c0` and `s0` start a reversal, for the linear shape `c0`
is the sample count it starts from (06 R221 to R224). -/
structure SelRec where
  s     : Nat
  n     : Nat
  shape : Nat
  old   : Quad Nat
  new   : Quad Nat
  c0    : Int
  s0    : Int
  back  : Bool
  /-- N of the curve that the record follows -/
  curve : Nat
  deriving DecidableEq, Repr

def SelRec.none : SelRec := ⟨0, 0, 0, Quad.all 0, Quad.all 0, 0, 0, false, 0⟩

/-- What the Keeper keeps of a route selector: the record adopted last and the one staged after it (06 R215, R221). -/
structure SelHeld where
  cur  : SelRec
  pend : Option SelRec
  deriving DecidableEq, Repr

def SelHeld.none : SelHeld := ⟨SelRec.none, .none⟩

/-- Words that the Keeper writes into a coefficient vector at the tick of a frame, for a change that has no slot (06 R218). -/
structure DirectPut where
  frame : Nat
  tile  : Nat
  vec   : Nat
  words : Quad Int
  deriving DecidableEq, Repr

/-- What a realm-bus access of the running step does to a vector (07 R248, R273). -/
inductive PortAct where
  | read
  | write (w : Quad (BitVec 32)) (be : BitVec 16)
  | atomic (kind : Fin 3) (lanes : BitVec 4) (w : Quad (BitVec 32))
  deriving DecidableEq, Repr

/-- A realm-bus access that fell in the running step of a tile: the vector, as it stood before, and what was done. -/
structure PortOp where
  bank : Nat
  vec  : Nat
  old  : Vec
  act  : PortAct
  deriving DecidableEq, Repr

structure Tile where
  regs    : Regs
  /-- the word being issued and the word that follows it (03 R74; 04 R149) -/
  pc      : Nat
  nextPc  : Nat
  /-- a word's first slot has issued and its step has not ended -/
  opened  : Bool
  /-- the fetched word had an uncorrectable error and executes as all-zero (07 R253) -/
  dead    : Bool
  /-- stores write poison for the rest of the frame (07 R253) -/
  damaged : Bool
  /-- number of steps issued, to order the results in flight -/
  issued  : Nat
  flight  : List Flight
  /-- slots of the open word that issued an operation -/
  used    : List Slot
  /-- realm-bus accesses in the open step, oldest first -/
  portB   : List PortOp
  ctx     : Ctx
  /-- the program bank that the tile runs: 0 A, 1 B; a tile that is late at a SWAP ends its frame in the outgoing bank -/
  bank    : Fin 2
  /-- the count of that frame in its image (03 R606) -/
  kf      : Nat
  /-- the frame that the tile runs or last ran, and the last frame whose `HALT` it reached -/
  frame   : Nat
  halted  : Option Nat
  /-- the latest start had a lateness that is not zero (02 R63) -/
  lateStart : Bool
  /-- barriers joined in this frame -/
  joined  : BitVec 8
  /-- exchange vectors stored in this frame -/
  written : List Nat
  tasks   : Tbl Task
  /-- next free entry of the rotation; 0 is the first free entry -/
  rotation : Nat
  slackSteps : Nat
  /-- instants of the overruns of the last 100 ms (02 R67) -/
  overruns : List Time
  /-- ramp slots by number, and selectors by record address, of the running image and of the incoming one (06 R231) -/
  slots     : Tbl Held
  slotsNext : Tbl Held
  sels      : Tbl SelHeld
  selsNext  : Tbl SelHeld
  /-- start frame of the STAGED record written last, by its address (06 R612) -/
  sets      : Tbl Nat
  deriving DecidableEq, Repr

def Tile.reset : Tile :=
  { regs := Regs.reset, pc := 0, nextPc := 0, opened := false, dead := false, damaged := false, issued := 0,
    flight := [], used := [], portB := [], ctx := .idle, bank := 0, kf := 0, frame := 0, halted := none, lateStart := false, joined := 0, written := [],
    tasks := [], rotation := 0, slackSteps := 0, overruns := [], slots := [], slotsNext := [], sels := [], selsNext := [], sets := [] }

/-! ## Frame sequence, program banks and loader (03) -/

/-- A SWAP armed for a frame, with the crossfade values taken at arming (03 R120; 06 R235). -/
structure Armed where
  frame  : Nat
  xfLen  : Nat
  xfShape : Nat
  deriving DecidableEq, Repr

/-- A range of a memory: its bank and the vectors from `lo` to `hi` − 1. -/
structure VRange where
  bank : Nat
  lo   : Nat
  hi   : Nat
  deriving DecidableEq, Repr

/-- The fade-in of a cold start (06 R235): start frame, length in samples and shape. -/
structure ColdFade where
  start : Nat
  len   : Nat
  shape : Nat
  deriving DecidableEq, Repr

structure FrameSt where
  /-- FRAME_NUMBER (03 R72) -/
  number  : Nat
  /-- instant of the last tick; a tick has happened since entry to BRING-UP -/
  tickAt  : Time
  prevTick : Time
  ticked  : Bool
  /-- foreground start and deadline of the current frame have passed -/
  started : Bool
  deadline : Bool
  /-- an image runs; its frames counted from 0 (03 R606) -/
  running : Bool
  k       : Nat
  /-- ACTIVE_BANK: 0 A, 1 B -/
  active  : Fin 2
  /-- bank states (03 Table 3-9) and the images the banks hold -/
  stA     : Nat
  stB     : Nat
  imgA    : List Byte
  imgB    : List Byte
  /-- bytes of the stream of the load in progress, the ranges written, the last byte's instant -/
  stream  : List Byte
  wrote   : List VRange
  lastByte : Time
  armed   : Option Armed
  /-- frame and tick instant of the last SWAP that took effect (02 R66), whether its tiles run the
  SWAP-frame program (03 R121), and whether SWAP_DONE has been raised -/
  swapFrame : Option (Nat × Time)
  swapHand : Bool
  swapDone : Bool
  cold    : Option ColdFade
  /-- KEEPER entries whose second half is current, and those to be made current at the next tick (03 R606) -/
  keeperHalf : Tbl Nat
  keeperPend : List (Nat × Nat)
  /-- predecessor epochs given by the handover's TASK entries: tile × 65,536 + TASK_ID to epoch (06 R238) -/
  preds   : Tbl Nat
  /-- the PTP timebase was the selected reference at the last tick (03 R73) -/
  byPtp   : Bool
  /-- sends that count as active inputs until a frame, and the exponents staged, by bus (06 R225, R226) -/
  hrUntil : Tbl Nat
  hrStaged : Tbl Nat
  /-- start frames of those exponents' records, and the buses whose records wait to be rewritten after FRAME_REALIGN
  (06 R205) -/
  hrStart : Tbl Nat
  hrMoved : List Nat
  /-- coefficient words to be written at the tick of a frame (06 R218) -/
  direct  : List DirectPut
  deriving DecidableEq, Repr

def FrameSt.reset : FrameSt :=
  { number := 0, tickAt := 0, prevTick := 0, ticked := false, started := false, deadline := false, running := false, k := 0,
    active := 0, stA := 0, stB := 0, imgA := [], imgB := [], stream := [], wrote := [], lastByte := 0, armed := none,
    swapFrame := none, swapHand := false, swapDone := true, cold := none, keeperHalf := [], keeperPend := [], preds := [], byPtp := false, hrUntil := [], hrStaged := [], hrStart := [],
    hrMoved := [], direct := [] }

/-! ## Margin Governor (02) -/

/-- One measured point of the fit: instant, VCORE in mV, worst step time in ps and die temperature (02 R56). -/
structure FitPoint where
  t  : Time
  mv : Nat
  ps : Nat
  temp : Int
  deriving DecidableEq, Repr

structure GovSt where
  /-- worst step times of the last 1 s (02 R44) and candidate requests of the last 1 s (02 R51) -/
  samples : List (Time × Nat)
  cands   : List (Time × Nat)
  lastFall : Option Time
  /-- VCORE values at which replicas were measured in the last 24 h (02 R51) -/
  measured : List (Time × Nat)
  fit     : List FitPoint
  /-- since when t_g has stayed at or below t_target × 0.99 (02 R59) -/
  lowSince : Option Time
  /-- normalised step times of the last 30 sweeps in 10^-6 ps (02 R57) and the sweeps recorded since realm reset (02 R58) -/
  norms   : List (Time × Nat)
  sweeps  : Nat
  /-- start of the running sweep and its S (02 R55); the ns of the timebase at which the next is due, `none` while one is due
  since an entry to BRING-UP (02 R54) -/
  sweepStart : Option (Time × Nat)
  sweepDue : Option Nat
  /-- the bring-up sweep has ended (01 R21) -/
  swept   : Bool
  /-- the die temperature as last read -/
  temp    : Int
  deriving DecidableEq, Repr

def GovSt.reset : GovSt :=
  { samples := [], cands := [], lastFall := none, measured := [], fit := [], lowSince := none, norms := [],
    sweeps := 0, sweepStart := none, sweepDue := none, swept := false, temp := 0 }

/-! ## Memory control (07) -/

/-- Power of a deep bank: state code of Table 7-3, the change in progress (target and the instant it is due) and
whether an access waits. -/
structure DeepPow where
  st     : Nat
  target : Option (Nat × Time)
  /-- a change from OFF to RETAIN, which passes through ON -/
  retain : Bool
  deriving DecidableEq, Repr

/-- Realm reset leaves every deep bank OFF (07 R266). -/
def DeepPow.reset : DeepPow := ⟨2, none, false⟩

structure MemSt where
  deep    : Tbl DeepPow
  /-- deep bank states before MBIST and before QUIET (07 R264, R269) -/
  before  : Tbl DeepPow
  /-- corrected errors of a bank in the running interval of 3,600 s, and that interval's number (07 R257) -/
  ceRate  : Tbl Nat
  ceInterval : Nat
  /-- banks that have raised MEM_CE_RATE in the running interval -/
  ceRaised : List Nat
  /-- scrubber: next bank and vector, and whether the retained arrays come first in this pass (07 R258) -/
  scrubBank : Nat
  scrubVec  : Nat
  scrubKept : Bool
  mbistMask : Nat
  mbistStart : Time
  /-- POISON_CLEAR started at, while it runs (08 R292) -/
  clearing : Option Time
  /-- initialisation after realm reset runs since; a REALM_START waits for it (07 R270) -/
  initSince : Option Time
  startWaits : Bool
  deriving DecidableEq, Repr

def MemSt.reset : MemSt :=
  { deep := [], before := [], ceRate := [], ceInterval := 0, ceRaised := [], scrubBank := 0, scrubVec := 0, scrubKept := false, mbistMask := 0,
    mbistStart := 0, clearing := none, initSince := none, startWaits := false }

/-! ## Output silencing (08) -/

/-- A cause that may silence an output: closed or open, and the start of its 2 ms fade while that runs. -/
structure Gate where
  closed : Bool
  fade   : Option Time
  deriving DecidableEq, Repr

def Gate.open : Gate := ⟨false, none⟩
def Gate.shut : Gate := ⟨true, none⟩

/-- An output channel: TDM channels 0 to 511, network channels from 0x1000 (08 R288 to R291). -/
structure Chan where
  /-- the word emitted in the last frame (08 R289), with its residue while inside the realm -/
  prev   : Lane
  /-- the last word taken from exchange memory, which a repeat emits (02 R61) -/
  taken  : Lane
  repeated : Bool
  faults : List Time
  muted  : Gate
  deriving DecidableEq, Repr

def Chan.reset : Chan := ⟨⟨0, 0⟩, ⟨0, 0⟩, false, [], Gate.open⟩

structure OutSt where
  chans  : Tbl Chan
  /-- overrun mutes, by tile (02 R67) -/
  tiles  : Tbl Gate
  /-- M#_MUTE_N (09 R330), loss of PLL lock (10 R359), the realm's mode (16 R548), SAFE (08 R295) -/
  pin    : Gate
  pll    : Gate
  mode   : Gate
  safe   : Gate
  /-- the level at M#_MUTE_N is low; when it last rose (09 R331, R332) -/
  pinLow : Bool
  pinRose : Time
  /-- every ball and output of the realm is silenced at once (16 R545, R551) -/
  cut    : Bool
  /-- start of the latest silencing interval of the whole realm (08 R287; 11 R397) -/
  silentAt : Time
  deriving DecidableEq, Repr

/-- Outputs are silent until a mode that drives them is entered (16 R548). -/
def OutSt.reset : OutSt := ⟨[], [], Gate.open, Gate.open, Gate.shut, Gate.open, false, 0, false, 0⟩

/-! ## Serial audio ports (09) -/

/-- A complete input TDM frame: the number of the FSYNC edge that closed it, the instant of its last bit and the words
of the active slots (09 R312). -/
structure InFrame where
  edge  : Nat
  done  : Time
  words : List Lane
  deriving DecidableEq, Repr

/-- A TDM port beyond its objects. -/
structure Port where
  /-- the input buoy: complete frames that are not taken, oldest first -/
  frames  : List InFrame
  /-- words of the frame received last (09 R320) -/
  last    : List Lane
  /-- closing edge of the frame taken at the last tick; `none` until a frame is chosen (09 R312) -/
  taken   : Option Nat
  /-- the last good words taken, and the words that the input channels carry after a port fade -/
  held    : List Lane
  shown   : List Lane
  /-- port fades: direction (true in) and words faded so far (09 R317) -/
  inFade  : Option (Bool × Nat)
  outFade : Option (Bool × Nat)
  /-- frames counted in STARTING or STOPPING; runs of valid frames, of frames outside FRAME_TOL and of invalid ones;
  frames since RATE_MEASURED was published -/
  count   : Nat
  valid   : Nat
  off     : Nat
  invalid : Nat
  rateFrames : Nat
  /-- ENABLE = 0 accepted in STARTING -/
  stop    : Bool
  /-- output frames that wait, by the FSYNC edge that begins them; the frame shifted last, its bits, and the edge from
  which the serialiser sends zero (09 R313, R320) -/
  outs    : List (Nat × List Lane)
  sent    : List Lane
  dout    : List (Option Bool)
  zeroEdge : Option Nat
  /-- bits of the frame shifted last that lie after the next FSYNC edge (09 R301), and the edge that began it; no level is
  high impedance -/
  tail    : List (Option Bool)
  outEdge : Option Nat
  /-- DOUT while no frame is shifted (09 Table 9-4) -/
  idle    : Option Bool
  /-- the FSYNC level of a master in each period of the frame shifted last, and whether DOUT and FSYNC change after the rising
  BCLK edge (09 R300, R303) -/
  fsync   : List Bool
  rise    : Bool
  /-- λ at the last tick (09 R311), and the instant of the accepted ENABLE = 1 (09 R321) -/
  lam     : Option Time
  enabledAt : Time
  /-- output words of the current realm frame are discarded (09 R314, R327) -/
  discard : Bool
  /-- ticks in a row at which a group member lay outside ALIGN_TOL, frames in a row within it, rejoining (09 R327, R328) -/
  misses  : Nat
  aligned : Nat
  rejoin  : Bool
  deriving DecidableEq, Repr

def Port.reset : Port :=
  { frames := [], last := [], taken := none, held := [], shown := [], inFade := none, outFade := none, count := 0,
    valid := 0, off := 0, invalid := 0, rateFrames := 0, stop := false, outs := [], sent := [], dout := [],
    tail := [], outEdge := none, idle := some false, fsync := [], rise := false, lam := none, enabledAt := 0, zeroEdge := none, discard := false, misses := 0, aligned := 0, rejoin := false }

/-! ## Clocks and references (10) -/

/-- A reference candidate beyond its objects: its signal is valid; since when it has been valid and within PULL_RANGE;
glitches in a row; since when it has been QUALIFIED (10 R347, R349). -/
structure Cand where
  signal  : Bool
  since   : Time
  glitch  : Nat
  qualAt  : Time
  /-- its frequency offset as last measured, in ppb (10 R348) -/
  off     : Int
  /-- the instant of its last edge or preamble (10 R346) -/
  last    : Option Time
  deriving DecidableEq, Repr

def Cand.reset : Cand := ⟨false, 0, 0, 0, 0, none⟩

structure ClockSt where
  /-- windows in a row within LOCK_TOL; start of the acquisition, attempts that failed since the first -/
  good     : Nat
  acqStart : Time
  fails    : Nat
  /-- glide steps done and the instant of the last one; start of SETTLING -/
  glide    : Nat
  glideAt  : Time
  settleAt : Time
  /-- SETTLING has not been reached since the entry to BRING-UP (10 R367) -/
  first    : Bool
  /-- the frame tick comes from the XO (10 R360); master-port inputs read zero until LOCKED (10 R360, R364) -/
  tickXo   : Bool
  masterZero : Bool
  /-- the source of MCLK, master BCLK and FSYNC and WCK_OUT: 0 held low, 1 backup oscillator, 2 DCO -/
  source   : Nat
  /-- M#_AUX0 and M#_AUX1 are held low (10 R359) -/
  auxLow   : Bool
  /-- DIV in units of 2^-40, and the sample rate that DIV_NOM and the tick divisor follow (10 R336, R340) -/
  div      : Nat
  rate     : Nat
  /-- y without what a pull adds, in ppb; STEERING holds y itself (10 R344, R345, R353) -/
  steer    : Int
  cands    : Tbl Cand
  /-- pairs of candidates, 5 × a + b: 1 has disagreed, t + 2 agrees again since t (10 R351) -/
  pairs    : Tbl Nat
  /-- since when |e| has been at most 50 ns; a pull runs (10 R344, R353) -/
  lockSince : Option Time
  pulling  : Bool
  /-- free run: its start and the steering offset held then (10 R355) -/
  slew     : Option (Time × Int)
  /-- a pull of PHASE_ADJUST: the instant it was last worked out and what is left then, in fine steps × 10^15 (10 R345) -/
  adjust   : Option (Time × Int)
  /-- last rise of M#_WCK_OUT; M#_PPS_OUT stays high until (10 R356, R357) -/
  wckRose  : Option Time
  ppsHigh  : Option Time
  /-- when each auxiliary synthesiser was enabled (10 R370) -/
  auxOn    : Tbl Time
  deriving DecidableEq, Repr

def ClockSt.reset : ClockSt :=
  { good := 0, acqStart := 0, fails := 0, glide := 0, glideAt := 0, settleAt := 0, first := true, tickXo := true,
    masterZero := true, source := 0, auxLow := true, div := Config.divNom48, rate := 96000, steer := 0, cands := [],
    pairs := [], lockSince := none, pulling := false, slew := none, adjust := none, wckRose := none, ppsHigh := none,
    auxOn := [] }

/-! ## Network (11) -/

/-- An IPv4 packet sent, or an ARP message (`proto` 0): its port, destination, protocol, TTL, DSCP, UDP ports, UDP checksum,
payload, and the identification and checksum of its header (11 R382). -/
structure NetOut where
  port  : Nat
  dst   : Nat
  proto : Nat
  ttl   : Nat
  dscp  : Nat
  sport : Nat
  dport : Nat
  sum   : Nat
  data  : List Byte
  ident : Nat
  hsum  : Nat
  deriving DecidableEq, Repr

/-- A media packet in a port's transmit queue (11 R396). -/
structure MediaPkt where
  stream : Nat
  dst   : Nat
  seq   : Nat
  stamp : Nat
  data  : List Byte
  deriving DecidableEq, Repr

/-- An ARP cache entry, and an address that is being resolved (11 Table 11-1). -/
structure ArpEnt where
  ip   : Nat
  mac  : Nat
  made : Time
  deriving DecidableEq, Repr

structure NetPort where
  /-- frames for the Keeper, oldest first, with the timestamp of a PTP event message in ns × 2^16 (11 R381, R385) -/
  queue   : List (Int × List Byte)
  arp     : List ArpEnt
  asking  : List Nat
  /-- echo replies in the running second (11 Table 11-1) -/
  icmpSec : Nat
  icmpNum : Nat
  media   : List MediaPkt
  /-- packets sent by the last command that sent any -/
  sent    : List NetOut
  /-- when a query of an IGMPv1 and of an IGMPv2 querier was heard last (11 Table 11-1) -/
  igmpV1  : Option Time
  igmpV2  : Option Time
  deriving DecidableEq, Repr

def NetPort.reset : NetPort := ⟨[], [], [], 0, 0, [], [], none, none⟩

/-- A packet of a receive stream: sequence number, timestamp, media count of the frame that takes its first sample, legs
that delivered it in time. -/
structure RxPkt where
  seq   : Nat
  stamp : Nat
  due   : Nat
  legA  : Bool
  legB  : Bool
  deriving DecidableEq, Repr

/-- A receive stream: samples that wait, by the media count of the frame that takes them (11 R403), the words delivered last and the words its channels
carry, sample times missing in a row, its fade, and the packets whose time has not passed. -/
structure Rx where
  buf   : Tbl (List Lane)
  held  : List Lane
  shown : List Lane
  miss  : Nat
  fade  : Option (Bool × Nat)
  pkts  : List RxPkt
  margins : List (Time × Int)
  stop  : Bool
  deriving DecidableEq, Repr

def Rx.reset : Rx := ⟨[], [], [], 0, none, [], [], false⟩

/-- A transmit stream: the words of the packet being filled, the media time of its first, the sequence number of the last
packet. -/
structure Tx where
  rows  : List (List Lane)
  first : Nat
  seq   : Option Nat
  stop  : Bool
  deriving DecidableEq, Repr

def Tx.reset : Tx := ⟨[], 0, none, false⟩

/-- The data of an Announce message that the BMCA compares, and who sent it. -/
structure PtpData where
  prio1 : Nat
  cls   : Nat
  acc   : Nat
  var   : Nat
  prio2 : Nat
  gm    : Nat
  steps : Nat
  src   : Nat
  deriving DecidableEq, Repr

/-- A foreign master: the port it is heard on, its latest data and the instants of its last Announce messages. -/
structure Foreign where
  port  : Nat
  data  : PtpData
  times : List Time
  deriving DecidableEq, Repr

structure PtpSt where
  foreign : List Foreign
  /-- the master selected; the port on which PTP runs (0 NETA, 1 NETB) -/
  master  : Option PtpData
  port    : Nat
  /-- runs of offsets within LOCK_THRESHOLD and beyond UNLOCK_THRESHOLD; a step has been made in ACQUIRING -/
  good    : Nat
  bad     : Nat
  stepped : Bool
  /-- outcomes of a returning or new master's first offsets (11 R387, R388) -/
  trial   : Option Nat
  /-- RATE_FRAC values of LOCKED, newest first, at most 64 -/
  rates   : List Nat
  /-- t1, t2 and correction of the last Sync, in ns × 2^16; sequence and t3 of
  the last Delay_Req, and of the last Pdelay_Req -/
  sync    : Option (Int × Int × Int)
  delayReq : Option (Nat × Int)
  pdelayReq : Option (Nat × Int)
  seqSync : Nat
  seqAnn  : Nat
  seqReq  : Nat
  deriving DecidableEq, Repr

def PtpSt.reset : PtpSt :=
  { foreign := [], master := none, port := 0, good := 0, bad := 0, stepped := false, trial := none, rates := [],
    sync := none, delayReq := none, pdelayReq := none, seqSync := 0, seqAnn := 0, seqReq := 0 }

structure NetSt where
  ports : Tbl NetPort
  rx    : Tbl Rx
  tx    : Tbl Tx
  /-- the media count m(n), while it is kept (11 R395) -/
  media : Option Nat
  /-- words of the network output channels of the frame that ended last (11 R396) -/
  outs  : Option (Tbl Lane)
  ptp   : PtpSt
  ppsIn : Option Time
  /-- the control byte that the I2C switch at 0x70 holds; none where no device acknowledges there (11 R376) -/
  i2c   : Option Nat
  deriving DecidableEq, Repr

def NetSt.reset : NetSt := ⟨[], [], [], none, none, PtpSt.reset, none, none⟩

/-! ## Biluno (12) -/

/-- An event record (12 R444). -/
structure EventRec where
  code  : Nat
  p0    : Bool
  src   : Nat
  frame : Nat
  secs  : Nat
  nanos : Nat
  deriving DecidableEq, Repr

structure Session where
  id     : Nat
  slot   : Nat
  role   : Nat
  tagged : Bool
  /-- the session key of R429 -/
  sk     : List Byte
  high   : Nat
  /-- the last 16 accepted SEQUENCEs with their replies (R431) -/
  replies : List (Nat × List Byte)
  lastAt : Time
  notifySeq : Nat
  /-- source of the latest request: port, IPv4 address, UDP port as one number (R443) -/
  origin : Nat
  deriving DecidableEq, Repr

structure Sub where
  id    : Nat
  sess  : Nat
  kind  : Nat
  page  : Nat
  index : Nat
  elem  : Nat
  span  : Nat
  rate  : Nat
  /-- METER: the rate after shedding; CHANGE: the values last sent, empty where all are to be sent (R439) -/
  cur   : Nat
  sent  : List (List Byte)
  lastAt : Time
  queue : List EventRec
  deriving DecidableEq, Repr

/-- A write accepted and not yet in effect (R432, R434): the object's key, its value, the frame of effect, the ramp time
of the write's own, whether a WRITE_AT made it, whether it is of access RW or WO, its promise class, the tiles whose
records have been staged and the instant of its receipt. -/
structure Effect where
  key     : Nat
  value   : Int
  frame   : Nat
  ramp    : Option Nat
  stamped : Bool
  rw      : Bool
  p0      : Bool
  tiles   : List Nat
  receipt : Time
  /-- a realignment has moved its frame, and its records wait to be rewritten (R435) -/
  moved   : Bool
  deriving DecidableEq, Repr

/-- An operation of a message (R417); `oid` is the 32-bit object ID. -/
structure Op where
  code  : Nat
  flags : Nat
  oid   : Nat
  body  : List Byte
  deriving DecidableEq, Repr

/-- Where a message comes from: session 0xFFFF_FFFF is the host session, `box` the mailbox it was taken from, `origin` the network
source, `seq` its SEQUENCE, `single` a command that stands for the sole operation of a message already checked. -/
structure Source where
  sess   : Nat
  seq    : Nat
  box    : Option Nat
  origin : Nat
  single : Bool
  deriving DecidableEq, Repr

/-- A message whose writes wait for the partner (17 R564 to R566): its source and operations, the frame and the instant of
receipt. -/
structure Fwd where
  src   : Source
  ops   : List Op
  frame : Nat
  at0   : Time
  deriving DecidableEq, Repr

/-- A notification that waits for mailbox 3 (15 R521): its METER subscription or 0, whether it carries a P0 event, and its
operations. -/
structure HostNote where
  meter : Nat
  p0    : Bool
  ops   : List Op
  deriving DecidableEq, Repr

structure BilSt where
  sessions : List Session
  subs     : List Sub
  nextSub  : Nat
  effects  : List Effect
  /-- P0 and P1 tokens as accumulated time: one P0 token is 250 µs, one P1 token 25 µs; instant of the last count (R436) -/
  tok0     : Nat
  tok1     : Nat
  tokAt    : Time
  /-- reply operations of the last operation carried out -/
  reply    : List Byte
  /-- operations sent to other realms, oldest first: the IPv4 address and the bytes (17 R564, R582) -/
  sent     : List (Nat × List Byte)
  log      : Tbl EventRec
  /-- replies to CRC and AUTH failures in the running second (R419) -/
  failSecond : Nat
  failCount  : Nat
  /-- notifications of the host session: their count, and those that wait for mailbox 3, oldest first (15 R521) -/
  hostSeq  : Nat
  hostQ    : List HostNote
  /-- windows in a row below 60%; when METER rates last changed (R439) -/
  calm     : Nat
  shedAt   : Time
  fwds     : List Fwd
  /-- a COUNTERS_CLEAR waits for the next tick (13 R453) -/
  clear    : Bool
  deriving DecidableEq, Repr

def EventRec.zero : EventRec := ⟨0, false, 0, 0, 0, 0⟩

/-- Both token counters are full after realm reset (log entry 13). -/
def BilSt.reset : BilSt :=
  { sessions := [], subs := [], nextSub := 1, effects := [], tok0 := 128 * us 250, tok1 := 800 * us 25, tokAt := 0,
    reply := [], sent := [], log := [], failSecond := 0, failCount := 0, hostSeq := 0, hostQ := [], calm := 0,
    shedAt := 0, fwds := [], clear := false }

/-! ## Keeper, realm bus, interrupts (14) -/

/-- A Sector (14 Table 14-5). -/
structure Sector where
  base    : BitVec 20
  masters : BitVec 5
  target  : BitVec 3
  size    : BitVec 5
  write   : Bool
  enable  : Bool
  offset  : BitVec 20
  deriving DecidableEq, Repr

/-- What a transaction does: a read of beats, a write of vectors with their lane enables, a narrow write with byte
enables, an atomic (14 R481; 07 R255, R271). -/
inductive BusOp where
  | read (beats : Nat)
  | write (vecs : List (Quad (BitVec 32) × BitVec 4))
  | narrow (data : List Byte) (be : BitVec 16)
  | atomic (kind : Fin 3) (lanes : BitVec 4) (operand : Quad (BitVec 32))
  deriving DecidableEq, Repr

/-- A transaction that waits for a deep bank or is held at a decoder (07 R267; 14 R483, R487, R488). -/
structure Wait where
  master : Nat
  addr   : Nat
  op     : BusOp
  since  : Time
  qos    : Nat
  held   : Bool
  watched : Bool
  deriving DecidableEq, Repr

/-- The response to a master's last transaction: data, POISON indication of each lane, decode error. -/
structure BusAns where
  data   : List (Quad (BitVec 32))
  poison : List (BitVec 4)
  error  : Bool
  deriving DecidableEq, Repr

def BusAns.none : BusAns := ⟨[], [], false⟩

structure BusSt where
  remap   : Bool
  /-- KC_PATCH.STATE -/
  patch   : Nat
  patchAt : Time
  sectors : Tbl Sector
  watch   : Bool
  watchMaster : Nat
  sectorError : Bool
  watchAddr : Nat
  waiting : List Wait
  /-- master served last at a target port (14 R483), by bank -/
  served  : Tbl Nat
  /-- masters in reset, with the instant of the reset cause (14 R490) -/
  resetting : Tbl Nat
  /-- interrupt controller (14 Table 14-13) -/
  pend    : BitVec 64
  mask    : BitVec 64
  enable  : Bool
  inService : BitVec 8
  chained : Bool
  alarm   : BitVec 32
  /-- the Keeper runs; instant of its last watchdog refresh (14 R468, R474) -/
  keeper  : Bool
  keeperStart : Option Time
  refreshed : Time
  /-- the response to the last transaction of each master -/
  answers : Tbl BusAns
  deriving DecidableEq, Repr

def BusSt.reset : BusSt :=
  { remap := false, patch := 0, patchAt := 0, sectors := [], watch := false, watchMaster := 0, sectorError := false,
    watchAddr := 0, waiting := [], served := [], resetting := [], pend := 0, mask := BitVec.allOnes 64, enable := false,
    inService := 0xFF, chained := false, alarm := 0, keeper := false, keeperStart := none, refreshed := 0,
    answers := [] }

/-! ## Realms, Host Hub, device -/

/-- Realm modes (13 Table 13-4). -/
inductive RMode where
  | dormant | bringUp | run | active | standby | takeover | safe | maintenance
  deriving DecidableEq, Repr

/-- Device modes (16 Table 16-2). -/
inductive DMode where
  | off | deepStandby | quiet | hub
  deriving DecidableEq, Repr

/-- The timebase (11 R383, R384): its value in units of 2^-32 ns at the instant `at0`, and the RATE_FRAC with which it
has advanced since then, one step per M#_XO cycle. -/
structure Tb where
  base : Nat
  at0  : Time
  rate : Nat
  deriving DecidableEq, Repr

/-- A transition of a realm in progress (16 R547): the mode it leads to, whether it parks the realm, whether it has
taken effect, and the instant at which its fade started. -/
structure Trans where
  target : RMode
  stop   : Bool
  begun  : Bool
  since  : Time
  deriving DecidableEq, Repr

/-- A beacon's body (17 Table 17-3). -/
structure Beacon where
  role   : Nat
  mode   : Nat
  health : Nat
  frame  : Nat
  window : Nat
  epoch  : Nat
  digest : Nat
  take   : Nat
  forwards : Nat
  image  : Nat
  deriving DecidableEq, Repr

/-- Pairing (17). -/
structure PairSt where
  /-- beacons sent; the number of the last window whose beacon was sent, plus 1; start of the last pulse at M#_PAIR_HB -/
  seq     : Nat
  sentWin : Nat
  pulse   : Option Time
  /-- FRAME of the last beacon accepted from a sender, plus 1, by address -/
  last    : Tbl Nat
  /-- the partner's last beacon and its instant; no beacon since PARTNER_LOST; when the wait for beacons began -/
  heard   : Option (Time × Beacon)
  lost    : Bool
  since   : Time
  /-- the digest of the window in progress, before its final inversion; own windows that have ended (first frame,
  EPOCH, DIGEST) and partner beacons not yet compared, newest first -/
  crc     : Nat
  own     : List (Nat × Nat × Nat)
  theirs  : List Beacon
  /-- windows whose partner beacon has not arrived: first frame and the tick that ended it -/
  due     : List (Nat × Time)
  /-- TAKE_FRAME; frame in which a TAKE was accepted; frame at which the realm releases; when it became ACTIVE -/
  takeFrame : Nat
  takeReq : Option Nat
  release : Option Nat
  activeAt : Time
  stepLost : Bool
  matched : Nat
  digest  : Bool
  forwards : Nat
  /-- the referee: last beacons of the active realm (newest first, two) and of the standby; TAKEs sent and when -/
  refA    : List (Time × Beacon)
  refS    : Option (Time × Beacon)
  refTake : Option (Nat × Time)
  deriving DecidableEq, Repr

def PairSt.reset : PairSt :=
  { seq := 0, sentWin := 0, pulse := none, last := [], heard := none, lost := false, since := 0, crc := 0xFFFFFFFF, own := [],
    theirs := [], due := [], takeFrame := 0, takeReq := none, release := none, activeAt := 0, stepLost := false, matched := 0,
    digest := false, forwards := 0, refA := [], refS := none, refTake := none }

structure Realm where
  mode   : RMode
  /-- the mode left on entering SAFE (08 R296) -/
  safeFrom : RMode
  trans  : Option Trans
  /-- the cause of an entry to SAFE that waits for the end of TAKEOVER or of a transition (08 R294) -/
  safeDue : Option Nat
  /-- entered DORMANT through REALM_STOP and not reset since (16 R552) -/
  parked : Bool
  objs   : Tbl Int
  tiles  : Tbl Tile
  frame  : FrameSt
  gov    : GovSt
  memory : MemSt
  out    : OutSt
  ports  : Tbl Port
  net    : NetSt
  clock  : ClockSt
  /-- M#_XO and M#_SDREF are present (01 R18) -/
  xo     : Bool
  sdref  : Bool
  /-- READY as last formed (13 R451) -/
  ready  : Nat
  bil    : BilSt
  bus    : BusSt
  pair   : PairSt
  tb     : Tb
  /-- instant of the entry to BRING-UP (13 READY_AT), and the ns of the timebase at the last one (07 R257) -/
  bringUpAt : Time
  bringUpTb : Nat
  /-- instants of the last rate-limited events, by event code × 2^32 + source (log entry 3) -/
  gates  : Tbl Nat
  deriving DecidableEq, Repr

/-- A mailbox (15 Tables 15-6, 15-7): mailbox b of realm n is number 4 × n + b, the device mailbox 16. -/
structure Mailbox where
  state     : Nat
  seq       : Nat
  abandoned : Bool
  length    : Nat
  buffer    : List Byte
  /-- the reply of a request that the realm has taken and carried out, until it is placed -/
  taken     : Option (List Byte)
  rung      : Time
  deriving DecidableEq, Repr

def Mailbox.empty : Mailbox := ⟨0, 0, false, 0, [], none, 0⟩

/-- A realm-bus transaction of an aperture burst: realm address and bytes; a write carries its data. -/
structure HubTx where
  addr : Nat
  len  : Nat
  data : List Byte
  deriving DecidableEq, Repr

/-- An aperture burst, or a READ_STATUS that waits (15 R510 to R514): its realm, the transactions left, the bytes read so
far, the bytes that HS_CS_N clocked, LEN + 1, the code of a stop at the region's end, the length condition, a POISON
indication met, the start of the access, and whether a transaction of it has been issued and not answered. -/
structure Burst where
  status : Bool
  realm  : RealmId
  write  : Bool
  txs    : List HubTx
  got    : List Byte
  clocked : Nat
  len    : Nat
  code   : Nat
  short  : Bool
  poison : Bool
  since  : Time
  issued : Bool
  deriving DecidableEq, Repr

/-- Power control (16): outputs PWR_EN0 to `en` − 1 are high; rails that are good, by number (VIO, VPLL, VRET, VSRAM, VCORE,
VSD, VSDH); the sequence that runs (0 none, 1 up, 2 down) and the outputs that a power-down leaves high; the instant of its
last step. -/
structure Power where
  vaon   : Bool
  en     : Nat
  good   : List Nat
  seq    : Nat
  leave  : Nat
  stepAt : Time
  /-- an accepted DEV_MODE_REQUEST: the outputs that stay high, and when its reply became READY (16 R543) -/
  request : Option (Nat × Time)
  /-- the power-down was started by a supply fault; PWR_EN0 fell in it at (15 R528; 16 R545) -/
  faulted : Bool
  fell    : Option Time
  /-- sources that have qualified while no wake can start (15 R531) -/
  wakes   : Nat
  /-- the AON timer: its start and the time after which it expires (15 R530) -/
  timer   : Option (Time × Time)
  deriving DecidableEq, Repr

def Power.reset : Power :=
  { vaon := true, en := 1, good := [], seq := 1, leave := 0, stepAt := 0, request := none, faulted := false, fell := none,
    wakes := 0, timer := none }

/-- Fuses: the customer key hash, its state, and a burn in progress with its start (13 R466). -/
structure Fuses where
  hash   : Nat
  burned : Bool
  burn   : Option (Nat × Time)
  deriving DecidableEq, Repr

structure Hub where
  mode   : DMode
  objs   : Tbl Int
  /-- HH_HOSTCFG: protocol mode, the mode from the next command, READ_LATENCY (15 R501) -/
  octal  : Bool
  octalNext : Bool
  latency : BitVec 5
  /-- HH_XFER_STATUS and HH_XFER_STICKY (15 R514) -/
  code   : Nat
  done   : Nat
  sticky : BitVec 32
  /-- HH_READY_DEV bits HUB, FUSES, AVS, WATCHER -/
  ready  : Bool
  fuses  : Bool
  avs    : Bool
  watcher : Bool
  /-- HH_READY_Mn as last mirrored (15 R519) -/
  mirror : Quad Nat
  /-- host interrupt controller (15 R523 to R527) -/
  ipend  : BitVec 32
  imask  : BitVec 32
  ienable : Bool
  inService : BitVec 8
  chained : Bool
  boxes  : Tbl Mailbox
  /-- posted writes that wait, the one that drains, a READ or READ_STATUS in progress, doorbells that wait for writes -/
  posted : List Burst
  drain  : Option Burst
  read   : Option Burst
  bells  : List (Nat × Nat)
  /-- bytes delivered by the last command that read, and reply operations of the last device operation -/
  out    : List Byte
  reply  : List Byte
  /-- the copy of DEV objects in the realms (12 R409) -/
  copy   : Tbl Int
  /-- the Host Hub has left reset at (15 R502; 16 R540) -/
  released : Time
  /-- VCORE as last commanded in mV, when, and transactions failed in a row (18 R596) -/
  vout   : Nat
  voutAt : Time
  avsFails : Nat
  power  : Power
  fuse   : Fuses
  /-- TEST_EN is high; the instruction in the TAP (18 R590; 01 R29) -/
  testEn : Bool
  tap    : Nat
  deriving DecidableEq, Repr

/-- After a power-on reset: DEEP STANDBY, the power-up sequence started (16 R541). -/
def Hub.reset : Hub :=
  { mode := .deepStandby, objs := [], octal := false, octalNext := false, latency := 20, code := 0, done := 0,
    sticky := 0, ready := false, fuses := false, avs := false, watcher := false, mirror := Quad.all 0, ipend := 0,
    imask := BitVec.allOnes 32, ienable := false, inService := 0xFF, chained := false, boxes := [], posted := [],
    drain := none, read := none, bells := [], out := [], reply := [], copy := [], released := 0, vout := 800, voutAt := 0,
    avsFails := 0, power := Power.reset, fuse := ⟨0, false, none⟩, testEn := false, tap := 1 }

/-- The state of the block. `now` and `free` are the model's own: the instant of the latest command and the counter
that free values are drawn with (log entries 1 and 2). -/
structure State where
  now     : Time
  free    : Nat
  hub     : Hub
  realms  : Quad Realm
  /-- the stored symbols of every memory of each realm (07 R249): address bank × 2^24 + vector × 32 + symbol -/
  mems    : Quad (List Host.Cell)
  pending : List Instr
  deriving DecidableEq, Repr

def Realm.reset : Realm :=
  { mode := .dormant, safeFrom := .run, trans := none, safeDue := none, parked := false, objs := [], tiles := [], frame := FrameSt.reset, gov := GovSt.reset,
    memory := MemSt.reset, out := OutSt.reset, ports := [], net := NetSt.reset, clock := ClockSt.reset, xo := true, sdref := true, ready := 0, bil := BilSt.reset, bus := BusSt.reset, pair := PairSt.reset, tb := ⟨0, 0, Config.rateFracNominal⟩, bringUpAt := 0, bringUpTb := 0, gates := [] }

def State.reset : State :=
  { now := 0, free := 0, hub := Hub.reset, realms := Quad.all Realm.reset,
    mems := Quad.all [], pending := [] }

end Sys2Proof.Machine
end

