-- ==== Sys2Proof/Machine/Flags.lean ====
section
/-!
DEFINITION. Check values: the residue of a word (08 R276 to R278), its derivation through the datapath (08 Table 8-2,
R283), the Reed-Solomon code of a stored unit (07 R249 to R251), and CRC-32C (03 R103; 12 R416).
These are the block's counterpart of flags: no other computation sets a check result.
MARKED CHOICES of this file (DESIGN CHOICE, DEDUCED or PRESUMED): log entry 5.
-/
namespace Sys2Proof.Machine

/-! ## Residues -/

/-- v mod 255, from 0 to 254 (08 R276). -/
def resInt (v : Int) : Nat := (v % 255).toNat

def res32 (w : BitVec 32) : BitVec 8 := BitVec.ofNat 8 (resInt w.toInt)
def res80 (w : BitVec 80) : BitVec 8 := BitVec.ofNat 8 (resInt w.toInt)

/-- A lane carrying the residue of its data (08 R279, R280). -/
def mkLane (w : BitVec 32) : Lane := ⟨w, res32 w⟩
def mkAcc (w : BitVec 80) : AccLane := ⟨w, res80 w⟩

def poisonRes : BitVec 8 := 0xFF

def lanePoisoned (l : Lane) : Bool := l.res == poisonRes
def accPoisoned (l : AccLane) : Bool := l.res == poisonRes

/-- The check of a lane passes (08 R278). -/
def laneOk (l : Lane) : Bool := !lanePoisoned l && l.res == res32 l.data
def accOk (l : AccLane) : Bool := !accPoisoned l && l.res == res80 l.data

/-- A failure that is a tally fault: the check fails and the lane is not poisoned (08 R278). -/
def laneTally (l : Lane) : Bool := !lanePoisoned l && l.res != res32 l.data
def accTally (l : AccLane) : Bool := !accPoisoned l && l.res != res80 l.data

/-- A poisoned lane; its data bits carry no meaning and are an open function of the word computed (08 R277). -/
def poisonLane (w : BitVec 32) : Lane := ⟨Config.poisonWord w, poisonRes⟩
def poisonAcc (w : BitVec 80) : AccLane := ⟨Config.poisonAccWord w, poisonRes⟩

/-- A result lane with what its checks found. -/
structure LaneOut where
  lane  : Lane
  tally : Bool
  sat   : Bool
  deriving DecidableEq, Repr

structure AccOut where
  lane  : AccLane
  tally : Bool
  deriving DecidableEq, Repr

/-- The sum of residue terms mod 255 (08 Table 8-2). -/
def resSum (v : Int) : BitVec 8 := BitVec.ofNat 8 (resInt v)

def rI (r : BitVec 8) : Int := (r.toNat : Int)

/-- A 32-bit result with a derived residue, checked against its data (08 R282). -/
def derived (w : BitVec 32) (r : BitVec 8) (srcOk srcTally sat : Bool) : LaneOut :=
  if srcOk then
    if r == res32 w then ⟨⟨w, r⟩, false, sat⟩ else ⟨poisonLane w, true, false⟩
  else ⟨poisonLane w, srcTally, false⟩

def derivedAcc (w : BitVec 80) (r : BitVec 8) (srcOk srcTally : Bool) : AccOut :=
  if srcOk then
    if r == res80 w then ⟨⟨w, r⟩, false⟩ else ⟨poisonAcc w, true⟩
  else ⟨poisonAcc w, srcTally⟩

/-- A 32-bit result whose residue is generated after the sources passed (08 R280). -/
def generated (w : BitVec 32) (srcOk srcTally : Bool) : LaneOut :=
  if srcOk then ⟨mkLane w, false, false⟩ else ⟨poisonLane w, srcTally, false⟩

/-- Limits of a saturating result (05 R169; 04 R161). -/
def limit32 (v : Int) : Int := if v > 2147483647 then 2147483647 else if v < -2147483648 then -2147483648 else v

/-- `ADD`, `SUB` and atomic ADD of one lane: `v` is the exact sum or difference, `r` its residue before the wrap term
(08 Table 8-2, R283). -/
def addLike (v r : Int) (sat srcOk srcTally : Bool) : LaneOut :=
  if sat && decide (limit32 v ≠ v) then
    -- the unlimited result is checked against its derived residue, then the residue of the limited word is generated
    let w := BitVec.ofInt 32 (limit32 v)
    if srcOk then
      if resSum r == resSum v then ⟨mkLane w, false, true⟩ else ⟨poisonLane w, true, false⟩
    else ⟨poisonLane w, srcTally, false⟩
  else
    let w := BitVec.ofInt 32 v
    let wrap := (v - w.toInt) / 4294967296
    derived w (resSum (r - wrap)) srcOk srcTally false

/-- `MAC`, `MSU`: `v` is the exact accumulation, `r` its residue before the wrap term. -/
def macLike (v r : Int) (srcOk srcTally : Bool) : AccOut :=
  let w := BitVec.ofInt 80 v
  let wrap := (v - w.toInt) / (2 ^ 80)
  derivedAcc w (resSum (r - wrap)) srcOk srcTally

/-- Rotation right of an 8-bit residue by d mod 8 bits: division by 2^d mod 255 (08 R283). -/
def resRotR (r : Nat) (d : Nat) : Nat :=
  let k := d % 8
  (r / 2 ^ k + (r % 2 ^ k) * 2 ^ (8 - k)) % 256

/-- The conversion of 04 R161 with the residue of 08 R283: `a` is the value, `ra` its residue. -/
def convert (a : Int) (ra : Nat) (k : Int) (sat srcOk srcTally : Bool) : LaneOut :=
  let d := (31 - k).toNat
  let q0 := a / (2 ^ d : Int)
  let r := a % (2 ^ d : Int)
  let h : Int := 2 ^ (d - 1)
  let up := decide (r > h) || (decide (r = h) && decide (q0 % 2 = 1))
  let q := if up then q0 + 1 else q0
  let rq0 := resRotR (((ra : Int) - r) % 255).toNat d % 255
  let rq := if up then (rq0 + 1) % 255 else rq0
  let lim := limit32 q
  let limited := sat && decide (lim ≠ q)
  let w := BitVec.ofInt 32 (if limited then lim else q)
  if srcOk then
    if resInt q = rq then
      if limited then ⟨mkLane w, false, true⟩
      else ⟨⟨w, resSum ((rq : Int) - (q - w.toInt) / 4294967296)⟩, false, false⟩
    else ⟨poisonLane w, true, false⟩
  else ⟨poisonLane w, srcTally, false⟩

/-! ## The code of a stored unit -/

/-- One doubling in GF(2^8) with field polynomial x^8 + x^4 + x^3 + x^2 + 1 (07 R250). -/
def gfDbl (a : Nat) : Nat := if a < 128 then 2 * a else (2 * a) ^^^ 0x11D

/-- Product in GF(2^8): the bits of `b` from the lowest, `n` of them. -/
def gfMulAux : Nat → Nat → Nat → Nat
  | 0, _, _ => 0
  | n + 1, a, b => (if b % 2 = 1 then a else 0) ^^^ gfMulAux n (gfDbl a) (b / 2)

def gfMul (a b : Nat) : Nat := gfMulAux 8 a b

/-- α^i, α the root x of the field polynomial. -/
def gfPow : Nat → Nat
  | 0 => 1
  | i + 1 => gfDbl (gfPow i)

/-- The codeword's value at `x` by Horner's rule; symbol 0 is the lowest coefficient. -/
def gfEval (x : Nat) : List Nat → Nat
  | [] => 0
  | c :: r => c ^^^ gfMul x (gfEval x r)

/-- Check symbols 20 to 22 of the 20 data and residue symbols: the solution of the three equations that make the
codeword vanish at α^0, α^1 and α^2 (07 R250). The constants are the inverse of the matrix of powers of α^20, α^21
and α^22 there. -/
def rsCheck (d : List Nat) : List Nat :=
  let t0 := gfEval 1 d
  let t1 := gfEval 2 d
  let t2 := gfEval 4 d
  [gfMul rsK00 t0 ^^^ gfMul rsK01 t1 ^^^ gfMul rsK02 t2,
   gfMul rsK10 t0 ^^^ gfMul rsK11 t1 ^^^ gfMul rsK12 t2,
   gfMul rsK20 t0 ^^^ gfMul rsK21 t1 ^^^ gfMul rsK22 t2]
where
  rsK00 : Nat := 196
  rsK01 : Nat := 110
  rsK02 : Nat := 132
  rsK10 : Nat := 83
  rsK11 : Nat := 251
  rsK12 : Nat := 198
  rsK20 : Nat := 150
  rsK21 : Nat := 149
  rsK22 : Nat := 66

/-- The outcome of a read of a stored unit (07 Table 7-2). -/
inductive CodeOut where
  | clean
  /-- one symbol corrected by adding the value -/
  | corrected (sym val : Nat)
  | uncorrectable
  deriving DecidableEq, Repr

/-- The position p of a single error: syndromes s0 = e, s1 = e α^p, s2 = e α^2p. -/
def rsLocate (s0 s1 s2 : Nat) : Nat → Nat → Option Nat
  | 0, _ => none
  | n + 1, p =>
    if gfMul s0 (gfPow p) = s1 ∧ gfMul s1 (gfPow p) = s2 then some p else rsLocate s0 s1 s2 n (p + 1)

/-- Decode the 23 symbols of a stored unit (07 R250, R251). -/
def rsDecode (c : List Nat) : CodeOut :=
  let s0 := gfEval 1 c
  let s1 := gfEval 2 c
  let s2 := gfEval 4 c
  if s0 = 0 ∧ s1 = 0 ∧ s2 = 0 then .clean
  else if s0 = 0 then .uncorrectable
  else
    match rsLocate s0 s1 s2 23 0 with
    | some p => .corrected p s0
    | none => .uncorrectable

/-! ## CRC-32C -/

def crcStep : Nat → Nat → Nat
  | 0, c => c
  | n + 1, c => crcStep n (if c % 2 = 1 then (c / 2) ^^^ 0x82F63B78 else c / 2)

def crcAcc (c : Nat) : List Byte → Nat
  | [] => c
  | b :: r => crcAcc (crcStep 8 (c ^^^ b.toNat)) r

/-- CRC-32C (Castagnoli, reflected, initial value and final inversion all ones). -/
def crc32c (bs : List Byte) : Nat := crcAcc 0xFFFFFFFF bs ^^^ 0xFFFFFFFF

end Sys2Proof.Machine
end

