-- ==== Sys2Proof/Machine/Objects.lean ====
section
/-!
DEFINITION. The object dictionary: one row per entry of the spec's object tables (02 Table 2-5, 03 Table 3-11,
04 Table 4-8, 05 Table 5-10, 06 Tables 6-11 and 6-12, 07 Table 7-4, 08 Table 8-8, 09 Table 9-7, 10 Table 10-6,
11 Tables 11-7 and 11-8, 12 Table 12-11, 13 Tables 13-3 to 13-16), with type, access code, default, accepted
values, role of writes, promise class and whether it stops at 0xFFFF_FFFF; and a name for the key of each.
A value is the integer of its wire form, least significant byte first (12 Table 12-1).
-/
namespace Sys2Proof.Machine

/-- Wire types (12 Table 12-1); ENUM is `u 1`, TIME and FREQ `u 4`, FRAME `u 8`. -/
inductive Ty where
  | bool | u (bytes : Nat) | s (bytes : Nat) | gain | ts | str | blob (size : Nat) | arr (count : Nat) | cmd
  deriving DecidableEq, Repr

/-- Access codes (12 Table 12-2). -/
inductive Access where
  | ro | rw | wo | rwr | rwf | cmd
  deriving DecidableEq, Repr

/-- One entry of an object table: `count` indices from `base`. -/
structure ObjRow where
  base  : Nat
  count : Nat
  elem  : Nat
  ty    : Ty
  acc   : Access
  dflt  : Int
  /-- accepted intervals; empty where any value of the type is accepted or nothing is written -/
  ivs   : List (Int × Int)
  step  : Nat
  role  : Nat
  p0    : Bool
  stops : Bool
  sel   : Bool
  deriving DecidableEq, Repr

/-- The key of an object (page, index, element), unique within a realm and within the device (00 R10). -/
def okey (page index elem : Nat) : Nat := page * 1048576 + index * 16 + elem

def rows01a : List ObjRow :=
  [⟨0x0, 1, 0, .str, .ro, 0, [], 1, 3, false, false, false⟩ /- VENDOR -/,
   ⟨0x0, 1, 1, .str, .ro, 0, [], 1, 3, false, false, false⟩ /- PART -/,
   ⟨0x1, 1, 0, .u 4, .ro, 177, [], 1, 3, false, false, false⟩ /- REVISION -/,
   ⟨0x2, 1, 0, .blob 16, .ro, 0, [], 1, 3, false, false, false⟩ /- DEVICE_SERIAL -/,
   ⟨0x3, 1, 0, .u 8, .ro, 0, [], 1, 3, false, false, false⟩ /- MAC_BASE -/,
   ⟨0x4, 1, 0, .blob 64, .ro, 0, [], 1, 3, false, false, false⟩ /- DEVICE_PUBKEY -/,
   ⟨0x4, 1, 1, .cmd, .cmd, 0, [], 1, 1, false, false, false⟩ /- IDENTITY_PROVE -/,
   ⟨0x5, 1, 0, .u 4, .ro, 0, [], 1, 3, false, false, false⟩ /- ROOT_KEY_ID -/,
   ⟨0x5, 1, 1, .blob 32, .ro, 0, [], 1, 3, false, false, false⟩ /- CUSTOMER_KEY_HASH -/,
   ⟨0x5, 1, 2, .u 1, .ro, 0, [], 1, 3, false, false, false⟩ /- KEY_HASH_STATE -/,
   ⟨0x5, 1, 3, .cmd, .cmd, 0, [], 1, 4, false, false, false⟩ /- KEY_HASH_BURN -/]

def rows01 : List ObjRow := rows01a

def rows02a : List ObjRow :=
  [⟨0x0, 1, 0, .u 1, .ro, 19, [], 1, 3, false, false, false⟩ /- DEV_MODE -/,
   ⟨0x0, 1, 1, .cmd, .cmd, 0, [], 1, 4, false, false, false⟩ /- DEV_MODE_REQUEST -/,
   ⟨0x1, 1, 0, .u 2, .ro, 800, [], 1, 3, false, false, false⟩ /- VCORE_SETPOINT -/,
   ⟨0x1, 1, 1, .u 1, .ro, 0, [], 1, 3, false, false, false⟩ /- VCORE_CONTRIBUTORS -/,
   ⟨0x1, 1, 2, .u 1, .ro, 255, [], 1, 3, false, false, false⟩ /- SWEEP_REALM -/,
   ⟨0x1, 1, 3, .s 2, .ro, 0, [], 1, 3, false, false, false⟩ /- DIE_TEMP_MAX -/,
   ⟨0x100, 4, 0, .u 1, .ro, 0, [], 1, 3, false, false, false⟩ /- REALM_MODE -/,
   ⟨0x100, 4, 1, .u 4, .ro, 0, [], 1, 3, false, false, false⟩ /- REALM_READY -/,
   ⟨0x100, 4, 2, .cmd, .cmd, 0, [], 1, 4, false, false, false⟩ /- REALM_START -/,
   ⟨0x100, 4, 3, .cmd, .cmd, 0, [], 1, 4, false, false, false⟩ /- REALM_STOP -/,
   ⟨0x100, 4, 4, .cmd, .cmd, 0, [], 1, 4, false, false, false⟩ /- REALM_RESET -/,
   ⟨0x100, 4, 5, .u 4, .ro, 0, [], 1, 3, false, true, false⟩ /- APERTURE_TIMEOUTS -/]

def rows02 : List ObjRow := rows02a

def rows03a : List ObjRow :=
  [⟨0x0, 1, 0, .u 4, .rw, 0, [(0, 129600)], 1, 4, false, false, false⟩ /- AON_TIMER -/,
   ⟨0x0, 1, 1, .u 1, .rw, 1, [(0, 127)], 1, 4, false, false, false⟩ /- WAKE_ENABLE -/,
   ⟨0x0, 1, 2, .u 1, .ro, 0, [], 1, 3, false, false, false⟩ /- WAKE_CAUSE -/,
   ⟨0x0, 1, 3, .u 1, .rw, 0, [(0, 15)], 1, 4, false, false, false⟩ /- GPIO_W_POLARITY -/]

def rows03 : List ObjRow := rows03a

def rows10a : List ObjRow :=
  [⟨0x0, 1, 0, .u 1, .ro, 0, [], 1, 3, false, false, false⟩ /- REALM_NUMBER -/,
   ⟨0x0, 1, 1, .str, .rw, 0, [], 1, 3, false, false, false⟩ /- REALM_NAME -/,
   ⟨0x1, 1, 0, .u 1, .ro, 1, [], 1, 3, false, false, false⟩ /- MODE -/,
   ⟨0x1, 1, 1, .cmd, .cmd, 0, [], 1, 3, false, false, false⟩ /- MODE_REQUEST -/,
   ⟨0x1, 1, 2, .ts, .ro, 0, [], 1, 3, false, false, false⟩ /- MODE_SINCE -/,
   ⟨0x2, 1, 0, .u 4, .ro, 1, [], 1, 3, false, false, false⟩ /- READY -/,
   ⟨0x2, 1, 1, .arr 32, .ro, (2 ^ 1024 - 1), [], 1, 3, false, false, false⟩ /- READY_AT -/]

def rows10 : List ObjRow := rows10a

def rows11a : List ObjRow :=
  [⟨0x0, 1, 0, .blob 6656, .ro, 0, [], 1, 3, false, false, false⟩ /- EVENT_LOG -/,
   ⟨0x0, 1, 1, .u 4, .ro, 0, [], 1, 3, false, false, false⟩ /- EVENT_NEXT -/,
   ⟨0x1, 1, 0, .cmd, .cmd, 0, [], 1, 3, false, false, false⟩ /- COUNTERS_CLEAR -/,
   ⟨0x1, 1, 1, .u 8, .ro, 0, [], 1, 3, false, false, false⟩ /- COUNTERS_CLEARED_AT -/]

def rows11 : List ObjRow := rows11a

def rows12a : List ObjRow :=
  [⟨0x0, 1, 0, .u 4, .ro, 4294967295, [], 1, 3, false, false, false⟩ /- TG -/,
   ⟨0x1, 1, 0, .u 4, .ro, 4294967295, [], 1, 3, false, false, false⟩ /- T_WORST -/,
   ⟨0x2, 1, 0, .u 4, .ro, 4294967295, [], 1, 3, false, false, false⟩ /- T_ADM -/,
   ⟨0x3, 1, 0, .u 2, .rw, 400, [(200, 1000)], 25, 3, false, false, false⟩ /- GUARD -/,
   ⟨0x4, 1, 0, .u 2, .ro, 200, [], 1, 3, false, false, false⟩ /- GUARD_FLOOR -/,
   ⟨0x5, 1, 0, .u 2, .rw, 500, [(200, 1500)], 25, 3, false, false, false⟩ /- SLACK_MARGIN -/,
   ⟨0x6, 1, 0, .u 2, .ro, 800, [], 1, 3, false, false, false⟩ /- VCORE_REQUEST -/,
   ⟨0x7, 1, 0, .u 2, .ro, 800, [], 1, 3, false, false, false⟩ /- VCORE_MERGED -/,
   ⟨0x8, 1, 0, .s 2, .ro, 0, [], 1, 3, false, false, false⟩ /- DIE_TEMP -/,
   ⟨0x9, 1, 0, .u 1, .ro, 0, [], 1, 3, false, false, false⟩ /- STATUS -/,
   ⟨0xa, 1, 0, .u 8, .ro, 0, [], 1, 3, false, false, false⟩ /- REPLICA_FAILED -/,
   ⟨0xb, 1, 0, .u 2, .rw, 0, [(0, 0), (600, 800)], 5, 3, false, false, false⟩ /- FIXED_REQUEST -/,
   ⟨0x10, 1, 0, .ts, .ro, 0, [], 1, 3, false, false, false⟩ /- SWEEP_LAST -/,
   ⟨0x11, 1, 0, .u 4, .ro, 4294967295, [], 1, 3, false, false, false⟩ /- T_NORM -/,
   ⟨0x12, 1, 0, .s 4, .ro, 0, [], 1, 3, false, false, false⟩ /- DRIFT -/,
   ⟨0x13, 1, 0, .u 2, .ro, 65535, [], 1, 3, false, false, false⟩ /- YEARS_TO_LIMIT -/,
   ⟨0x100, 16, 0, .u 4, .ro, 0, [], 1, 3, false, true, false⟩ /- OVERRUN_COUNT -/,
   ⟨0x100, 16, 1, .bool, .ro, 0, [], 1, 3, false, false, false⟩ /- OVERRUN_MUTED -/,
   ⟨0x100, 16, 2, .u 4, .ro, 0, [], 1, 3, false, false, false⟩ /- LATENESS -/,
   ⟨0x100, 16, 3, .u 4, .ro, 0, [], 1, 3, false, true, false⟩ /- LATE_WRITES -/,
   ⟨0x100, 16, 4, .cmd, .cmd, 0, [], 1, 2, true, false, false⟩ /- OVERRUN_CLEAR -/]

def rows12 : List ObjRow := rows12a

def rows14a : List ObjRow :=
  [⟨0x0, 1, 0, .u 8, .ro, 0, [], 1, 3, false, false, false⟩ /- FRAME_NUMBER -/,
   ⟨0x1, 1, 0, .u 2, .ro, 0, [], 1, 3, false, false, false⟩ /- RUNNING_EPOCH -/,
   ⟨0x2, 1, 0, .blob 16, .ro, 0, [], 1, 3, false, false, false⟩ /- RUNNING_IMAGE_ID -/,
   ⟨0x3, 1, 0, .u 1, .ro, 0, [], 1, 3, false, false, false⟩ /- ACTIVE_BANK -/,
   ⟨0x4, 1, 0, .u 1, .ro, 0, [], 1, 3, false, false, false⟩ /- BANK_STATE_A -/,
   ⟨0x4, 1, 1, .u 1, .ro, 0, [], 1, 3, false, false, false⟩ /- BANK_STATE_B -/,
   ⟨0x5, 1, 0, .cmd, .cmd, 0, [], 1, 3, false, false, false⟩ /- LOAD_BEGIN -/,
   ⟨0x5, 1, 1, .cmd, .cmd, 0, [], 1, 3, false, false, false⟩ /- LOAD_ABORT -/,
   ⟨0x6, 1, 0, .u 1, .ro, 0, [], 1, 3, false, false, false⟩ /- LOAD_ERROR -/,
   ⟨0x6, 1, 1, .u 4, .ro, 0, [], 1, 3, false, false, false⟩ /- LOAD_ERROR_OFFSET -/,
   ⟨0x6, 1, 2, .u 4, .ro, 0, [], 1, 3, false, false, false⟩ /- LOAD_BYTES -/,
   ⟨0x6, 1, 3, .u 1, .ro, 0, [], 1, 3, false, false, false⟩ /- LOAD_STATUS -/,
   ⟨0x7, 1, 0, .cmd, .cmd, 0, [], 1, 2, false, false, false⟩ /- SWAP -/,
   ⟨0x7, 1, 1, .cmd, .cmd, 0, [], 1, 2, false, false, false⟩ /- SWAP_CANCEL -/,
   ⟨0x7, 1, 2, .u 8, .ro, 18446744073709551615, [], 1, 3, false, false, false⟩ /- SWAP_ARMED -/,
   ⟨0x8, 1, 0, .u 4, .ro, 0, [], 1, 3, false, false, false⟩ /- CRITICAL_STEPS -/,
   ⟨0x8, 1, 1, .s 4, .ro, 0, [], 1, 3, false, false, false⟩ /- ADMISSION_HEADROOM -/,
   ⟨0x9, 1, 0, .u 4, .ro, 0, [], 1, 3, false, false, false⟩ /- PENDING_CRITICAL_STEPS -/,
   ⟨0x100, 16, 0, .u 4, .ro, 0, [], 1, 3, false, false, false⟩ /- ADMIT_STEPS -/,
   ⟨0x100, 16, 1, .u 4, .ro, 0, [], 1, 3, false, false, false⟩ /- ADMIT_STEPS_SWAP -/,
   ⟨0x100, 16, 2, .u 4, .ro, 0, [], 1, 3, false, true, false⟩ /- SLACK_LATE -/,
   ⟨0x100, 16, 3, .u 4, .ro, 0, [], 1, 3, false, true, false⟩ /- EXCH_VIOLATION -/,
   ⟨0x100, 16, 4, .u 4, .ro, 0, [], 1, 3, false, false, false⟩ /- SLACK_STEPS -/]

def rows14 : List ObjRow := rows14a

def rows16a : List ObjRow :=
  [⟨0x100, 16, 0, .u 4, .ro, 0, [], 1, 3, false, true, false⟩ /- SATURATIONS -/,
   ⟨0x100, 16, 1, .u 4, .ro, 0, [], 1, 3, false, true, false⟩ /- DEEP_VIOLATION -/,
   ⟨0x100, 16, 2, .u 4, .ro, 0, [], 1, 3, false, true, false⟩ /- PROGRAM_END -/,
   ⟨0x100, 16, 3, .u 4, .ro, 0, [], 1, 3, false, true, false⟩ /- ILLEGAL_SLOT -/,
   ⟨0x100, 16, 4, .u 4, .ro, 0, [], 1, 3, false, true, false⟩ /- POISON_COMPARE -/]

def rows16 : List ObjRow := rows16a

def rows18a : List ObjRow :=
  [⟨0x0, 1, 0, .u 2, .rw, 16, [(1, 65535)], 1, 3, false, false, false⟩ /- CE_THRESHOLD -/,
   ⟨0x0, 1, 1, .cmd, .cmd, 0, [], 1, 3, false, false, false⟩ /- COUNT_CLEAR -/,
   ⟨0x1, 1, 0, .u 2, .rw, 10, [(1, 3600)], 1, 3, false, false, false⟩ /- SCRUB_PERIOD -/,
   ⟨0x1, 1, 1, .u 4, .ro, 0, [], 1, 3, false, true, false⟩ /- SCRUB_PASSES -/,
   ⟨0x2, 1, 0, .cmd, .cmd, 0, [], 1, 4, false, false, false⟩ /- MBIST_START -/,
   ⟨0x2, 1, 1, .u 1, .ro, 0, [], 1, 3, false, false, false⟩ /- MBIST_STATE -/,
   ⟨0x3, 1, 0, .cmd, .cmd, 0, [], 1, 4, false, false, false⟩ /- ERR_INJECT -/,
   ⟨0x100, 132, 0, .u 4, .ro, 0, [], 1, 3, false, true, false⟩ /- CE_COUNT -/,
   ⟨0x100, 132, 1, .u 4, .ro, 0, [], 1, 3, false, true, false⟩ /- UE_COUNT -/,
   ⟨0x100, 132, 2, .u 4, .ro, 0, [], 1, 3, false, false, false⟩ /- LAST_ERROR -/,
   ⟨0x100, 132, 3, .u 4, .ro, 0, [], 1, 3, false, false, false⟩ /- REPAIR -/,
   ⟨0x100, 132, 4, .u 1, .ro, 0, [], 1, 3, false, false, false⟩ /- MBIST_RESULT -/,
   ⟨0x100, 132, 5, .u 4, .ro, 0, [], 1, 3, false, true, false⟩ /- MBIST_FAILS -/,
   ⟨0x100, 132, 6, .u 1, .rw, 0, [(0, 2)], 1, 3, false, false, false⟩ /- POWER_STATE -/,
   ⟨0x100, 132, 7, .u 4, .ro, 0, [], 1, 3, false, true, false⟩ /- POWER_FAULTS -/]

def rows18 : List ObjRow := rows18a

def rows1Aa : List ObjRow :=
  [⟨0x0, 1, 0, .u 2, .rw, 1000, [(10, 60000)], 1, 3, false, false, false⟩ /- TALLY_WINDOW -/,
   ⟨0x0, 1, 1, .u 1, .rw, 2, [(2, 16)], 1, 3, false, false, false⟩ /- MUTE_AFTER -/,
   ⟨0x0, 1, 2, .u 2, .rw, 4, [(1, 1024)], 1, 3, false, false, false⟩ /- P0_MUTED -/,
   ⟨0x0, 1, 3, .u 2, .rw, 16, [(1, 1024)], 1, 3, false, false, false⟩ /- HEALTH_MUTED -/,
   ⟨0x0, 1, 4, .bool, .rw, 0, [(0, 1)], 1, 4, false, false, false⟩ /- SAFE_ON_HEALTH -/,
   ⟨0x0, 1, 5, .bool, .rw, 1, [(0, 1)], 1, 3, false, false, false⟩ /- AUTO_CLEAR -/,
   ⟨0x1, 1, 0, .u 2, .ro, 0, [], 1, 3, false, false, false⟩ /- TALLY_MUTED_CHANNELS -/,
   ⟨0x1, 1, 1, .cmd, .cmd, 0, [], 1, 2, false, false, false⟩ /- POISON_CLEAR -/,
   ⟨0x1, 1, 2, .u 1, .ro, 0, [], 1, 3, false, false, false⟩ /- POISON_CLEAR_STATE -/,
   ⟨0x1, 1, 3, .u 4, .ro, 0, [], 1, 3, false, false, false⟩ /- POISON_CLEARED -/,
   ⟨0x2, 1, 0, .cmd, .cmd, 0, [], 1, 2, true, false, false⟩ /- SAFE_ENTER -/,
   ⟨0x2, 1, 1, .cmd, .cmd, 0, [], 1, 3, true, false, false⟩ /- SAFE_EXIT -/,
   ⟨0x2, 1, 2, .u 1, .ro, 0, [], 1, 3, false, false, false⟩ /- SAFE_CAUSE -/,
   ⟨0x3, 1, 0, .u 4, .ro, 0, [], 1, 3, false, true, false⟩ /- EGRESS_POISON -/,
   ⟨0x300, 16, 0, .u 4, .ro, 0, [], 1, 3, false, true, false⟩ /- SERIALISER_ZERO -/,
   ⟨0x100, 16, 0, .u 4, .ro, 0, [], 1, 3, false, true, false⟩ /- TALLY_TILE -/,
   ⟨0x1000, 512, 0, .u 4, .ro, 0, [], 1, 3, false, true, false⟩ /- TALLY_COUNT -/,
   ⟨0x2000, 512, 0, .u 4, .ro, 0, [], 1, 3, false, true, false⟩ /- TALLY_COUNT -/,
   ⟨0x1000, 512, 1, .bool, .ro, 0, [], 1, 3, false, false, false⟩ /- TALLY_MUTED -/,
   ⟨0x2000, 512, 1, .bool, .ro, 0, [], 1, 3, false, false, false⟩ /- TALLY_MUTED -/,
   ⟨0x1000, 512, 2, .cmd, .cmd, 0, [], 1, 2, true, false, false⟩ /- TALLY_UNMUTE -/,
   ⟨0x2000, 512, 2, .cmd, .cmd, 0, [], 1, 2, true, false, false⟩ /- TALLY_UNMUTE -/,
   ⟨0x1000, 512, 3, .u 4, .ro, 0, [], 1, 3, false, true, false⟩ /- REPEATS -/,
   ⟨0x2000, 512, 3, .u 4, .ro, 0, [], 1, 3, false, true, false⟩ /- REPEATS -/,
   ⟨0x2000, 512, 4, .u 4, .ro, 0, [], 1, 3, false, true, false⟩ /- REPEAT_ZERO -/]

def rows1A : List ObjRow := rows1Aa

def rows20a : List ObjRow :=
  [⟨0x0, 1, 0, .bool, .ro, 0, [], 1, 3, false, false, false⟩ /- MUTE_PIN_STATE -/,
   ⟨0x0, 1, 1, .u 4, .rw, 10000000, [(0, 1000000000)], 1, 3, false, false, false⟩ /- MUTE_RELEASE -/,
   ⟨0x0, 1, 2, .bool, .rw, 1, [(0, 1)], 1, 4, false, false, false⟩ /- MUTE_PIN_ENABLE -/,
   ⟨0x0, 1, 3, .u 4, .ro, 0, [], 1, 3, false, true, false⟩ /- MUTE_PIN_COUNT -/,
   ⟨0x100, 16, 0, .bool, .rw, 0, [(0, 1)], 1, 3, false, false, false⟩ /- ENABLE -/,
   ⟨0x100, 16, 1, .u 1, .rw, 1, [(0, 2)], 1, 3, false, false, false⟩ /- ROLE -/,
   ⟨0x100, 16, 2, .u 1, .rw, 8, [(0, 31)], 1, 3, false, false, false⟩ /- SLOTS -/,
   ⟨0x100, 16, 3, .u 1, .rw, 32, [(8, 32)], 1, 3, false, false, false⟩ /- SLOT_WIDTH -/,
   ⟨0x100, 16, 4, .u 1, .rw, 24, [(8, 8), (16, 16), (20, 20), (24, 24), (32, 32)], 1, 3, false, false, false⟩ /- WORD_LEN -/,
   ⟨0x100, 16, 5, .u 1, .rw, 0, [(0, 31)], 1, 3, false, false, false⟩ /- OFFSET -/,
   ⟨0x100, 16, 6, .u 1, .rw, 0, [(0, 1)], 1, 3, false, false, false⟩ /- FSYNC_FORM -/,
   ⟨0x100, 16, 7, .u 1, .rw, 0, [(0, 1)], 1, 3, false, false, false⟩ /- FSYNC_POL -/,
   ⟨0x100, 16, 8, .u 1, .rw, 0, [(0, 1)], 1, 3, false, false, false⟩ /- BCLK_EDGE -/,
   ⟨0x100, 16, 9, .u 4, .rw, 255, [(0, 4294967295)], 1, 3, false, false, false⟩ /- IN_MASK -/,
   ⟨0x100, 16, 10, .u 4, .rw, 255, [(0, 4294967295)], 1, 3, false, false, false⟩ /- OUT_MASK -/,
   ⟨0x100, 16, 11, .u 1, .rw, 0, [(0, 1)], 1, 3, false, false, false⟩ /- OUT_IDLE -/,
   ⟨0x100, 16, 12, .u 1, .rw, 0, [(0, 8)], 1, 3, false, false, false⟩ /- GROUP -/,
   ⟨0x100, 16, 13, .u 2, .rw, 64, [(0, 4096)], 1, 3, false, false, false⟩ /- START_FRAMES -/,
   ⟨0x100, 16, 14, .u 2, .rw, 64, [(0, 4096)], 1, 3, false, false, false⟩ /- STOP_FRAMES -/,
   ⟨0x100, 16, 15, .u 4, .rw, 0, [(0, 0), (80, 10000)], 1, 3, false, false, false⟩ /- LOSS_TIMEOUT -/,
   ⟨0x200, 16, 0, .u 2, .rw, 256, [(1, 65535)], 1, 3, false, false, false⟩ /- REQUAL_FRAMES -/,
   ⟨0x200, 16, 1, .u 2, .rw, 2000, [(100, 50000)], 1, 3, false, false, false⟩ /- FRAME_TOL -/,
   ⟨0x200, 16, 2, .u 1, .rw, 4, [(1, 255)], 1, 3, false, false, false⟩ /- INVALID_LIMIT -/,
   ⟨0x200, 16, 3, .u 4, .rw, 500, [(200, 2000)], 1, 3, false, false, false⟩ /- SLIP_GUARD -/,
   ⟨0x300, 16, 0, .u 1, .ro, 0, [], 1, 3, false, false, false⟩ /- STATE -/,
   ⟨0x300, 16, 1, .u 1, .ro, 0, [], 1, 3, false, false, false⟩ /- CONFIG_ERROR -/,
   ⟨0x300, 16, 2, .u 4, .ro, 0, [], 1, 3, false, false, false⟩ /- RATE_MEASURED -/,
   ⟨0x300, 16, 3, .u 4, .ro, 0, [], 1, 3, false, false, false⟩ /- BUOY_LEVEL -/,
   ⟨0x300, 16, 4, .u 1, .ro, 2, [], 1, 3, false, false, false⟩ /- LATENCY_FRAMES -/,
   ⟨0x300, 16, 5, .bool, .ro, 0, [], 1, 3, false, false, false⟩ /- PIN_FAULT -/]

def rows20b : List ObjRow :=
  [⟨0x300, 16, 6, .bool, .ro, 0, [], 1, 3, false, false, false⟩ /- ALIGN_OUT -/,
   ⟨0x400, 16, 0, .u 4, .ro, 0, [], 1, 3, false, true, false⟩ /- LOSSES -/,
   ⟨0x400, 16, 1, .u 4, .ro, 0, [], 1, 3, false, true, false⟩ /- INVALID_FRAMES -/,
   ⟨0x400, 16, 2, .u 4, .ro, 0, [], 1, 3, false, true, false⟩ /- CONCEALED_FRAMES -/,
   ⟨0x400, 16, 3, .u 4, .ro, 0, [], 1, 3, false, true, false⟩ /- SLIPS -/,
   ⟨0x400, 16, 4, .u 4, .ro, 0, [], 1, 3, false, true, false⟩ /- OUT_CLIPS -/,
   ⟨0x501, 8, 0, .u 1, .ro, 255, [], 1, 3, false, false, false⟩ /- ANCHOR -/,
   ⟨0x501, 8, 1, .u 1, .rw, 2, [(0, 16)], 1, 3, false, false, false⟩ /- ALIGN_TOL -/,
   ⟨0x501, 8, 2, .u 2, .rw, 16, [(1, 65535)], 1, 3, false, false, false⟩ /- REJOIN_FRAMES -/]

def rows20 : List ObjRow := rows20a ++ rows20b

def rows22a : List ObjRow :=
  [⟨0x0, 1, 0, .u 1, .rw, 3, [(0, 5)], 1, 3, false, false, false⟩ /- SAMPLE_RATE -/,
   ⟨0x0, 1, 1, .u 1, .rw, 0, [(0, 2)], 1, 4, false, false, false⟩ /- REF_PATH -/,
   ⟨0x1, 1, 0, .u 1, .ro, 0, [], 1, 3, false, false, false⟩ /- PLL_STATE -/,
   ⟨0x1, 1, 1, .u 4, .rw, 4096, [(256, 65536)], 1, 3, false, false, false⟩ /- LOCK_WINDOW -/,
   ⟨0x1, 1, 2, .u 2, .rw, 2, [(0, 1000)], 1, 3, false, false, false⟩ /- LOCK_TOL -/,
   ⟨0x1, 1, 3, .u 1, .rw, 4, [(1, 64)], 1, 3, false, false, false⟩ /- LOCK_WINDOWS -/,
   ⟨0x1, 1, 4, .u 2, .rw, 8, [(1, 2000)], 1, 3, false, false, false⟩ /- UNLOCK_TOL -/,
   ⟨0x1, 1, 5, .u 4, .ro, 36621, [], 1, 3, false, false, false⟩ /- LOCK_BOUND -/,
   ⟨0x1, 1, 6, .u 4, .rw, 250000, [(10000, 10000000)], 1, 3, false, false, false⟩ /- GLIDE_INTERVAL -/,
   ⟨0x1, 1, 7, .u 4, .rw, 20000000, [(0, 1000000000)], 1, 3, false, false, false⟩ /- RELOCK_SETTLE -/,
   ⟨0x1, 1, 8, .u 4, .ro, 0, [], 1, 3, false, true, false⟩ /- UNLOCKS -/,
   ⟨0x1, 1, 9, .u 4, .ro, 0, [], 1, 3, false, true, false⟩ /- RELOCK_FAILS -/,
   ⟨0x2, 1, 0, .u 1, .ro, 255, [], 1, 3, false, false, false⟩ /- SELECTED -/,
   ⟨0x2, 1, 1, .u 1, .ro, 0, [], 1, 3, false, false, false⟩ /- REF_STATE -/,
   ⟨0x2, 1, 2, .bool, .rw, 1, [(0, 1)], 1, 3, false, false, false⟩ /- REVERTIVE -/,
   ⟨0x2, 1, 3, .u 4, .rw, 10000, [(0, 3600000)], 1, 3, false, false, false⟩ /- HOLDOFF -/,
   ⟨0x2, 1, 4, .u 4, .rw, 20000, [(1000, 1000000)], 1, 3, false, false, false⟩ /- DISAGREE -/,
   ⟨0x2, 1, 5, .bool, .rw, 0, [(0, 1)], 1, 3, false, false, false⟩ /- VOTE -/,
   ⟨0x2, 1, 6, .u 4, .rw, 2000, [(100, 60000)], 1, 3, false, false, false⟩ /- QUAL_TIME -/,
   ⟨0x2, 1, 7, .u 4, .rw, 100000, [(10000, 500000)], 1, 3, false, false, false⟩ /- PULL_RANGE -/,
   ⟨0x2, 1, 8, .u 4, .rw, 500, [(10, 10000)], 1, 3, false, false, false⟩ /- LOOP_BW -/,
   ⟨0x2, 1, 9, .u 4, .rw, 10000, [(1000, 500000)], 1, 3, false, false, false⟩ /- PULL_RATE -/,
   ⟨0x2, 1, 10, .u 4, .rw, 1000, [(10, 100000)], 1, 3, false, false, false⟩ /- FREE_SLEW -/,
   ⟨0x2, 1, 11, .s 4, .ro, 0, [], 1, 3, false, false, false⟩ /- STEERING -/,
   ⟨0x2, 1, 12, .s 4, .ro, 0, [], 1, 3, false, false, false⟩ /- PHASE_ERROR -/,
   ⟨0x2, 1, 13, .u 4, .ro, 0, [], 1, 3, false, true, false⟩ /- SWITCHES -/,
   ⟨0x2, 1, 14, .u 4, .ro, 0, [], 1, 3, false, true, false⟩ /- DISAGREE_COUNT -/,
   ⟨0x100, 5, 0, .u 1, .rw, 8, [(0, 8)], 1, 3, false, false, false⟩ /- RANK -/,
   ⟨0x100, 5, 1, .u 1, .ro, 1, [], 1, 3, false, false, false⟩ /- CAND_STATE -/,
   ⟨0x100, 5, 2, .s 4, .ro, 0, [], 1, 3, false, false, false⟩ /- CAND_OFFSET -/]

def rows22b : List ObjRow :=
  [⟨0x100, 5, 3, .u 4, .ro, 0, [], 1, 3, false, true, false⟩ /- GLITCHES -/,
   ⟨0x100, 5, 4, .u 4, .ro, 0, [], 1, 3, false, true, false⟩ /- CAND_LOSSES -/,
   ⟨0x100, 5, 5, .u 1, .rw, 0, [(0, 1)], 1, 3, false, false, false⟩ /- CAND_MODE -/,
   ⟨0x100, 5, 6, .u 1, .rw, 0, [(0, 1)], 1, 3, false, false, false⟩ /- CAND_POL -/,
   ⟨0x200, 1, 0, .s 4, .rw, 0, [(-2500, 2500)], 1, 3, false, false, false⟩ /- TICK_OFFSET -/,
   ⟨0x200, 1, 1, .u 1, .rw, 0, [(0, 2)], 1, 3, false, false, false⟩ /- WCK_OUT_MODE -/,
   ⟨0x200, 1, 2, .u 1, .rw, 2, [(0, 2)], 1, 3, false, false, false⟩ /- PPS_OUT_MODE -/,
   ⟨0x200, 1, 3, .s 4, .rw, 0, [(-500000000, 499999999)], 1, 3, false, false, false⟩ /- PPS_OFFSET -/,
   ⟨0x200, 1, 4, .u 4, .rw, 100000, [(1000, 500000000)], 1, 3, false, false, false⟩ /- PPS_WIDTH -/,
   ⟨0x200, 1, 5, .cmd, .cmd, 0, [], 1, 3, false, false, false⟩ /- PHASE_ADJUST -/,
   ⟨0x300, 4, 0, .u 1, .rw, 0, [(0, 3)], 1, 3, false, false, false⟩ /- MCLK_SEL -/,
   ⟨0x400, 2, 0, .bool, .rw, 0, [(0, 1)], 1, 3, false, false, false⟩ /- AUX_ENABLE -/,
   ⟨0x400, 2, 1, .u 4, .rw, 25000000, [(1000000, 200000000)], 1, 3, false, false, false⟩ /- AUX_FREQ -/,
   ⟨0x400, 2, 2, .u 8, .ro, 0, [], 1, 3, false, false, false⟩ /- AUX_ACTUAL -/,
   ⟨0x400, 2, 3, .u 1, .rw, 0, [(0, 2)], 1, 3, false, false, false⟩ /- SSC_MODE -/,
   ⟨0x400, 2, 4, .u 1, .rw, 5, [(1, 20)], 1, 3, false, false, false⟩ /- SSC_DEPTH -/,
   ⟨0x400, 2, 5, .u 4, .rw, 31500, [(30000, 100000)], 1, 3, false, false, false⟩ /- SSC_RATE -/]

def rows22 : List ObjRow := rows22a ++ rows22b

def rows24a : List ObjRow :=
  [⟨0x0, 1, 0, .bool, .rw, 1, [(0, 1)], 1, 3, false, false, false⟩ /- PTP_ENABLE -/,
   ⟨0x0, 1, 1, .u 1, .rw, 0, [(0, 1)], 1, 3, false, false, false⟩ /- PTP_PROFILE -/,
   ⟨0x0, 1, 2, .u 1, .rw, 0, [(0, 127)], 1, 3, false, false, false⟩ /- PTP_DOMAIN -/,
   ⟨0x0, 1, 3, .u 1, .rw, 0, [(0, 1)], 1, 3, false, false, false⟩ /- DELAY_MECH -/,
   ⟨0x0, 1, 4, .u 1, .rw, 2, [(0, 2)], 1, 3, false, false, false⟩ /- PTP_PORT -/,
   ⟨0x0, 1, 5, .bool, .rw, 1, [(0, 1)], 1, 3, false, false, false⟩ /- SLAVE_ONLY -/,
   ⟨0x0, 1, 6, .u 1, .rw, 128, [(0, 255)], 1, 3, false, false, false⟩ /- PRIORITY1 -/,
   ⟨0x0, 1, 7, .u 1, .rw, 128, [(0, 255)], 1, 3, false, false, false⟩ /- PRIORITY2 -/,
   ⟨0x0, 1, 8, .s 2, .rw, (-3), [(-4, 1)], 1, 3, false, false, false⟩ /- LOG_SYNC -/,
   ⟨0x0, 1, 9, .s 2, .rw, 1, [(-3, 4)], 1, 3, false, false, false⟩ /- LOG_ANNOUNCE -/,
   ⟨0x0, 1, 10, .s 2, .rw, 0, [(-4, 5)], 1, 3, false, false, false⟩ /- LOG_DELAY_REQ -/,
   ⟨0x0, 1, 11, .u 1, .rw, 3, [(2, 10)], 1, 3, false, false, false⟩ /- ANNOUNCE_TIMEOUT -/,
   ⟨0x0, 1, 12, .u 8, .ro, 0, [], 1, 3, false, false, false⟩ /- GM_IDENTITY -/,
   ⟨0x0, 1, 13, .u 1, .ro, 0, [], 1, 3, false, false, false⟩ /- PTP_STATE -/,
   ⟨0x0, 1, 14, .u 4, .ro, 0, [], 1, 3, false, true, false⟩ /- PTP_FAILOVERS -/,
   ⟨0x0, 1, 15, .u 4, .ro, 0, [], 1, 3, false, true, false⟩ /- TWO_STEP_DISCARDS -/,
   ⟨0x1, 1, 0, .u 1, .ro, 0, [], 1, 3, false, false, false⟩ /- TB_STATE -/,
   ⟨0x1, 1, 1, .ts, .ro, 0, [], 1, 3, false, false, false⟩ /- PTP_TIME -/,
   ⟨0x1, 1, 2, .s 4, .ro, 0, [], 1, 3, false, false, false⟩ /- OFFSET -/,
   ⟨0x1, 1, 3, .u 4, .ro, 0, [], 1, 3, false, false, false⟩ /- MEAN_PATH_DELAY -/,
   ⟨0x1, 1, 4, .u 4, .ro, 1481987413, [], 1, 3, false, false, false⟩ /- RATE_FRAC -/,
   ⟨0x1, 1, 5, .u 4, .rw, 100, [(10, 10000)], 1, 3, false, false, false⟩ /- LOCK_THRESHOLD -/,
   ⟨0x1, 1, 6, .u 4, .rw, 1000, [(100, 1000000)], 1, 3, false, false, false⟩ /- UNLOCK_THRESHOLD -/,
   ⟨0x1, 1, 7, .u 4, .rw, 10000, [(1000, 1000000000)], 1, 3, false, false, false⟩ /- STEP_THRESHOLD -/,
   ⟨0x1, 1, 8, .u 4, .rw, 1000, [(100, 10000)], 1, 3, false, false, false⟩ /- SERVO_BW -/,
   ⟨0x1, 1, 9, .cmd, .cmd, 0, [], 1, 4, false, false, false⟩ /- TIME_SET -/,
   ⟨0x1, 1, 10, .u 4, .ro, 0, [], 1, 3, false, true, false⟩ /- GM_CHANGES -/,
   ⟨0x1, 1, 11, .ts, .ro, 0, [], 1, 3, false, false, false⟩ /- PPS_IN_TS -/,
   ⟨0x1, 1, 12, .s 4, .ro, 0, [], 1, 3, false, false, false⟩ /- PPS_IN_ERROR -/,
   ⟨0x1, 1, 13, .u 4, .ro, 0, [], 1, 3, false, true, false⟩ /- MEDIA_SLIPS -/]

def rows24b : List ObjRow :=
  [⟨0x1, 1, 14, .u 1, .rw, 4, [(0, 16)], 1, 3, false, false, false⟩ /- NET_BANKS -/,
   ⟨0x100, 2, 0, .bool, .rw, 1, [(0, 1)], 1, 3, false, false, false⟩ /- LINK_ENABLE -/,
   ⟨0x100, 2, 1, .u 1, .ro, 0, [], 1, 3, false, false, false⟩ /- LINK_STATE -/,
   ⟨0x100, 2, 2, .u 8, .rw, 0, [(0, 281474976710655)], 1, 4, false, false, false⟩ /- MAC_ADDRESS -/,
   ⟨0x100, 2, 3, .u 4, .rw, 0, [(0, 4294967295)], 1, 3, false, false, false⟩ /- IP_ADDRESS -/,
   ⟨0x100, 2, 4, .u 1, .rw, 24, [(8, 30)], 1, 3, false, false, false⟩ /- IP_PREFIX -/,
   ⟨0x100, 2, 5, .u 4, .rw, 0, [(0, 4294967295)], 1, 3, false, false, false⟩ /- GATEWAY -/,
   ⟨0x100, 2, 6, .u 2, .rw, 0, [(0, 4094)], 1, 3, false, false, false⟩ /- VLAN_ID -/,
   ⟨0x100, 2, 7, .u 1, .rw, 34, [(0, 63)], 1, 3, false, false, false⟩ /- DSCP_MEDIA -/,
   ⟨0x100, 2, 8, .u 1, .rw, 46, [(0, 63)], 1, 3, false, false, false⟩ /- DSCP_PTP -/,
   ⟨0x100, 2, 9, .u 4, .ro, 0, [], 1, 3, false, true, false⟩ /- RX_DROPS -/,
   ⟨0x100, 2, 10, .u 4, .ro, 0, [], 1, 3, false, true, false⟩ /- FCS_ERRORS -/,
   ⟨0x100, 2, 11, .blob 96, .ro, 0, [], 1, 3, false, false, false⟩ /- MODULE_ID -/,
   ⟨0x100, 2, 12, .blob 16, .ro, 0, [], 1, 3, false, false, false⟩ /- MODULE_DIAG -/]

def rows24 : List ObjRow := rows24a ++ rows24b

def rows26a : List ObjRow :=
  [⟨0x100, 64, 0, .bool, .rw, 0, [(0, 1)], 1, 2, false, false, false⟩ /- ENABLE -/,
   ⟨0x300, 64, 0, .bool, .rw, 0, [(0, 1)], 1, 2, false, false, false⟩ /- ENABLE -/,
   ⟨0x100, 64, 1, .u 4, .rw, 0, [(0, 4294967295)], 1, 3, false, false, false⟩ /- GROUP_A -/,
   ⟨0x100, 64, 2, .u 4, .rw, 0, [(0, 4294967295)], 1, 3, false, false, false⟩ /- GROUP_B -/,
   ⟨0x100, 64, 3, .u 4, .rw, 0, [(0, 4294967295)], 1, 3, false, false, false⟩ /- SOURCE_A -/,
   ⟨0x100, 64, 4, .u 4, .rw, 0, [(0, 4294967295)], 1, 3, false, false, false⟩ /- SOURCE_B -/,
   ⟨0x100, 64, 5, .u 2, .rw, 5004, [(1024, 65535)], 1, 3, false, false, false⟩ /- UDP_PORT -/,
   ⟨0x300, 64, 3, .u 2, .rw, 5004, [(1024, 65535)], 1, 3, false, false, false⟩ /- UDP_PORT -/,
   ⟨0x100, 64, 6, .u 1, .rw, 97, [(96, 127)], 1, 3, false, false, false⟩ /- PT -/,
   ⟨0x300, 64, 4, .u 1, .rw, 97, [(96, 127)], 1, 3, false, false, false⟩ /- PT -/,
   ⟨0x100, 64, 7, .u 1, .rw, 0, [(0, 1)], 1, 3, false, false, false⟩ /- ENCODING -/,
   ⟨0x300, 64, 5, .u 1, .rw, 0, [(0, 1)], 1, 3, false, false, false⟩ /- ENCODING -/,
   ⟨0x100, 64, 8, .u 1, .rw, 8, [(1, 64)], 1, 3, false, false, false⟩ /- CH -/,
   ⟨0x300, 64, 6, .u 1, .rw, 8, [(1, 64)], 1, 3, false, false, false⟩ /- CH -/,
   ⟨0x100, 64, 9, .u 1, .rw, 2, [(0, 2)], 1, 3, false, false, false⟩ /- PTIME -/,
   ⟨0x300, 64, 7, .u 1, .rw, 2, [(0, 2)], 1, 3, false, false, false⟩ /- PTIME -/,
   ⟨0x100, 64, 10, .u 2, .rw, 0, [(0, 511)], 1, 3, false, false, false⟩ /- FIRST -/,
   ⟨0x300, 64, 8, .u 2, .rw, 0, [(0, 511)], 1, 3, false, false, false⟩ /- FIRST -/,
   ⟨0x100, 64, 11, .u 4, .rw, 0, [(0, 4294967295)], 1, 3, false, false, false⟩ /- RTP_OFFSET -/,
   ⟨0x300, 64, 9, .u 4, .rw, 0, [(0, 4294967295)], 1, 3, false, false, false⟩ /- RTP_OFFSET -/,
   ⟨0x100, 64, 12, .u 4, .rw, 0, [(0, 4294967295)], 1, 3, false, false, false⟩ /- SSRC -/,
   ⟨0x300, 64, 10, .u 4, .rw, 0, [(0, 4294967295)], 1, 3, false, false, false⟩ /- SSRC -/,
   ⟨0x100, 64, 13, .u 2, .rw, 0, [(0, 8192)], 1, 3, false, false, false⟩ /- PRES_OFFSET -/,
   ⟨0x100, 64, 14, .u 1, .rw, 1, [(0, 8)], 1, 3, false, false, false⟩ /- CONCEAL -/,
   ⟨0x200, 64, 0, .u 1, .ro, 0, [], 1, 3, false, false, false⟩ /- STATE -/,
   ⟨0x400, 64, 0, .u 1, .ro, 0, [], 1, 3, false, false, false⟩ /- STATE -/,
   ⟨0x200, 64, 1, .u 1, .ro, 0, [], 1, 3, false, false, false⟩ /- ERROR -/,
   ⟨0x400, 64, 1, .u 1, .ro, 0, [], 1, 3, false, false, false⟩ /- ERROR -/,
   ⟨0x200, 64, 2, .u 4, .ro, 0, [], 1, 3, false, true, false⟩ /- RX_LATE -/,
   ⟨0x200, 64, 3, .u 4, .ro, 0, [], 1, 3, false, true, false⟩ /- RX_LOST -/]

def rows26b : List ObjRow :=
  [⟨0x200, 64, 4, .u 4, .ro, 0, [], 1, 3, false, true, false⟩ /- RX_DUPLICATES -/,
   ⟨0x200, 64, 5, .u 4, .ro, 0, [], 1, 3, false, true, false⟩ /- RX_DISCARDS -/,
   ⟨0x200, 64, 6, .u 4, .ro, 0, [], 1, 3, false, true, false⟩ /- LEG_MISSES_A -/,
   ⟨0x200, 64, 7, .u 4, .ro, 0, [], 1, 3, false, true, false⟩ /- LEG_MISSES_B -/,
   ⟨0x200, 64, 8, .s 4, .ro, 0, [], 1, 3, false, false, false⟩ /- ARRIVAL_MARGIN -/,
   ⟨0x300, 64, 1, .u 4, .rw, 0, [(0, 4294967295)], 1, 3, false, false, false⟩ /- DEST -/,
   ⟨0x300, 64, 2, .u 1, .rw, 0, [(0, 2)], 1, 3, false, false, false⟩ /- TX_LEGS -/,
   ⟨0x300, 64, 11, .u 1, .rw, 32, [(1, 255)], 1, 3, false, false, false⟩ /- TX_TTL -/,
   ⟨0x400, 64, 2, .u 4, .ro, 0, [], 1, 3, false, false, false⟩ /- TX_PACKETS -/,
   ⟨0x400, 64, 3, .u 4, .ro, 0, [], 1, 3, false, true, false⟩ /- TX_CLIPS -/]

def rows26 : List ObjRow := rows26a ++ rows26b

def rows28a : List ObjRow :=
  [⟨0x0, 1, 0, .u 2, .rw, 47061, [(1024, 65535)], 1, 4, false, false, false⟩ /- BILUNO_PORT -/,
   ⟨0x0, 1, 1, .u 1, .rw, 1, [(0, 3)], 1, 4, false, false, false⟩ /- UNAUTH_ROLE -/,
   ⟨0x0, 1, 2, .u 2, .rw, 60, [(5, 3600)], 1, 4, false, false, false⟩ /- SESSION_TIMEOUT -/,
   ⟨0x0, 1, 3, .u 1, .ro, 32, [], 1, 3, false, false, false⟩ /- SESSION_LIMIT -/,
   ⟨0x0, 1, 4, .u 1, .ro, 0, [], 1, 3, false, false, false⟩ /- SESSIONS_OPEN -/,
   ⟨0x0, 1, 5, .u 1, .ro, 0, [], 1, 3, false, false, false⟩ /- SHED_LEVEL -/,
   ⟨0x0, 1, 6, .u 2, .ro, 0, [], 1, 3, false, false, false⟩ /- STAMPED_PENDING -/,
   ⟨0x1, 1, 0, .u 4, .ro, 0, [], 1, 3, false, true, false⟩ /- RX_MESSAGES -/,
   ⟨0x1, 1, 1, .u 4, .ro, 0, [], 1, 3, false, true, false⟩ /- CRC_ERRORS -/,
   ⟨0x1, 1, 2, .u 4, .ro, 0, [], 1, 3, false, true, false⟩ /- AUTH_FAILS -/,
   ⟨0x1, 1, 3, .u 4, .ro, 0, [], 1, 3, false, true, false⟩ /- MALFORMED_COUNT -/,
   ⟨0x1, 1, 4, .u 4, .ro, 0, [], 1, 3, false, true, false⟩ /- BUSY_SENT -/,
   ⟨0x1, 1, 5, .u 4, .ro, 0, [], 1, 3, false, true, false⟩ /- P0_ACCEPTED -/,
   ⟨0x1, 1, 6, .u 4, .ro, 0, [], 1, 3, false, true, false⟩ /- P1_ACCEPTED -/,
   ⟨0x1, 1, 7, .u 4, .ro, 0, [], 1, 3, false, false, false⟩ /- P0_WORST -/,
   ⟨0x1, 1, 8, .u 4, .ro, 0, [], 1, 3, false, false, false⟩ /- P1_WORST -/,
   ⟨0x1, 1, 9, .u 4, .ro, 0, [], 1, 3, false, false, false⟩ /- REPLY_WORST -/,
   ⟨0x1, 1, 10, .u 4, .ro, 0, [], 1, 3, false, true, false⟩ /- EVENTS_LOST -/,
   ⟨0x100, 8, 0, .blob 32, .wo, 0, [], 1, 4, false, false, false⟩ /- KEY -/,
   ⟨0x100, 8, 1, .u 1, .rw, 0, [(0, 4)], 1, 4, false, false, false⟩ /- KEY_ROLE -/]

def rows28 : List ObjRow := rows28a

def rows2Aa : List ObjRow :=
  [⟨0x0, 1, 0, .u 4, .ro, 0, [], 1, 3, false, false, false⟩ /- FW_VERSION -/,
   ⟨0x0, 1, 1, .u 4, .ro, 0, [], 1, 3, false, false, false⟩ /- PATCH_ID -/,
   ⟨0x0, 1, 2, .u 1, .ro, 0, [], 1, 3, false, false, false⟩ /- PATCH_STATE -/,
   ⟨0x0, 1, 3, .u 1, .ro, 0, [], 1, 3, false, false, false⟩ /- KEEPER_BUSY -/,
   ⟨0x1, 1, 0, .u 1, .rw, 0, [(0, 1)], 1, 4, false, false, false⟩ /- DECODE_POLICY -/,
   ⟨0x1, 1, 1, .u 4, .ro, 0, [], 1, 3, false, true, false⟩ /- BUS_WATCH_COUNT -/]

def rows2A : List ObjRow := rows2Aa

def rows30a : List ObjRow :=
  [⟨0x0, 1, 0, .u 1, .rw, 0, [(0, 1)], 1, 4, false, false, false⟩ /- PAIR_MODE -/,
   ⟨0x0, 1, 1, .u 1, .ro, 0, [], 1, 3, false, false, false⟩ /- PAIR_ROLE -/,
   ⟨0x0, 1, 2, .u 4, .rw, 0, [(0, 4294967295)], 1, 4, false, false, false⟩ /- PARTNER_ADDRESS -/,
   ⟨0x0, 1, 3, .u 4, .rw, 0, [(0, 4294967295)], 1, 4, false, false, false⟩ /- BEACON_GROUP -/,
   ⟨0x0, 1, 4, .u 2, .rw, 3, [(2, 100)], 1, 4, false, false, false⟩ /- BEACON_TIMEOUT -/,
   ⟨0x0, 1, 5, .cmd, .cmd, 0, [], 1, 2, true, false, false⟩ /- TAKE -/,
   ⟨0x1, 1, 0, .u 2, .ro, 0, [], 1, 3, false, false, false⟩ /- HEALTH -/,
   ⟨0x1, 1, 1, .u 2, .ro, 0, [], 1, 3, false, false, false⟩ /- PARTNER_HEALTH -/,
   ⟨0x1, 1, 2, .u 8, .ro, 0, [], 1, 3, false, false, false⟩ /- PARTNER_FRAME -/,
   ⟨0x1, 1, 3, .u 4, .ro, 0, [], 1, 3, false, false, false⟩ /- DIGEST_LAST -/,
   ⟨0x1, 1, 4, .u 4, .ro, 0, [], 1, 3, false, true, false⟩ /- DIGEST_MISMATCHES -/,
   ⟨0x1, 1, 5, .u 4, .ro, 0, [], 1, 3, false, true, false⟩ /- BEACONS_MISSED -/,
   ⟨0x1, 1, 6, .u 4, .ro, 0, [], 1, 3, false, true, false⟩ /- TAKEOVERS -/,
   ⟨0x2, 1, 0, .bool, .rw, 0, [(0, 1)], 1, 4, false, false, false⟩ /- REFEREE_ENABLE -/,
   ⟨0x2, 1, 1, .u 4, .rw, 0, [(0, 4294967295)], 1, 4, false, false, false⟩ /- REFEREE_ACTIVE -/,
   ⟨0x2, 1, 2, .u 4, .rw, 0, [(0, 4294967295)], 1, 4, false, false, false⟩ /- REFEREE_STANDBY -/]

def rows30 : List ObjRow := rows30a

def rows40a : List ObjRow :=
  [⟨0x0, 512, 0, .gain, .rwr, (-32768), [(-14400, 1000), (-32768, -32768)], 1, 2, false, false, false⟩ /- FADER -/,
   ⟨0x0, 512, 1, .bool, .rwr, 0, [(0, 1)], 1, 2, true, false, false⟩ /- MUTE -/,
   ⟨0x0, 512, 2, .s 2, .rwr, 0, [(-10000, 10000)], 1, 2, false, false, false⟩ /- PAN -/,
   ⟨0x0, 512, 3, .u 1, .rwf, 0, [(0, 15)], 1, 2, false, false, true⟩ /- INPUT -/,
   ⟨0x0, 512, 4, .gain, .rwr, 0, [(-2400, 2400)], 1, 2, false, false, false⟩ /- TRIM -/,
   ⟨0x0, 512, 5, .bool, .rwf, 0, [(0, 1)], 1, 2, false, false, true⟩ /- POLARITY -/,
   ⟨0x0, 512, 6, .str, .rw, 0, [], 1, 2, false, false, false⟩ /- NAME -/,
   ⟨0x200, 512, 0, .bool, .rwf, 0, [(0, 1)], 1, 2, false, false, true⟩ /- HPF_ON -/,
   ⟨0x200, 512, 1, .u 4, .rwf, 80000, [(10000, 24000000)], 1, 2, false, false, false⟩ /- HPF_FREQ -/,
   ⟨0x400, 512, 0, .bool, .rwf, 0, [(0, 1)], 1, 2, false, false, true⟩ /- EQ_ON -/,
   ⟨0x600, 512, 0, .bool, .rwf, 0, [(0, 1)], 1, 2, false, false, true⟩ /- EQ_ON -/,
   ⟨0x800, 512, 0, .bool, .rwf, 0, [(0, 1)], 1, 2, false, false, true⟩ /- EQ_ON -/,
   ⟨0xa00, 512, 0, .bool, .rwf, 0, [(0, 1)], 1, 2, false, false, true⟩ /- EQ_ON -/,
   ⟨0x400, 512, 1, .u 4, .rwf, 100000, [(10000, 24000000)], 1, 2, false, false, false⟩ /- EQ_FREQ -/,
   ⟨0x600, 512, 1, .u 4, .rwf, 500000, [(10000, 24000000)], 1, 2, false, false, false⟩ /- EQ_FREQ -/,
   ⟨0x800, 512, 1, .u 4, .rwf, 2000000, [(10000, 24000000)], 1, 2, false, false, false⟩ /- EQ_FREQ -/,
   ⟨0xa00, 512, 1, .u 4, .rwf, 8000000, [(10000, 24000000)], 1, 2, false, false, false⟩ /- EQ_FREQ -/,
   ⟨0x400, 512, 2, .gain, .rwf, 0, [(-1800, 1800)], 1, 2, false, false, false⟩ /- EQ_GAIN -/,
   ⟨0x600, 512, 2, .gain, .rwf, 0, [(-1800, 1800)], 1, 2, false, false, false⟩ /- EQ_GAIN -/,
   ⟨0x800, 512, 2, .gain, .rwf, 0, [(-1800, 1800)], 1, 2, false, false, false⟩ /- EQ_GAIN -/,
   ⟨0xa00, 512, 2, .gain, .rwf, 0, [(-1800, 1800)], 1, 2, false, false, false⟩ /- EQ_GAIN -/,
   ⟨0x400, 512, 3, .u 2, .rwf, 700, [(100, 20000)], 1, 2, false, false, false⟩ /- EQ_Q -/,
   ⟨0x600, 512, 3, .u 2, .rwf, 700, [(100, 20000)], 1, 2, false, false, false⟩ /- EQ_Q -/,
   ⟨0x800, 512, 3, .u 2, .rwf, 700, [(100, 20000)], 1, 2, false, false, false⟩ /- EQ_Q -/,
   ⟨0xa00, 512, 3, .u 2, .rwf, 700, [(100, 20000)], 1, 2, false, false, false⟩ /- EQ_Q -/,
   ⟨0xc00, 512, 0, .bool, .rwf, 0, [(0, 1)], 1, 2, false, false, true⟩ /- GATE_ON -/,
   ⟨0xc00, 512, 1, .s 2, .rwf, (-6000), [(-9000, 0)], 1, 2, false, false, false⟩ /- GATE_THRESHOLD -/,
   ⟨0xc00, 512, 2, .u 2, .rwf, 6000, [(0, 9000)], 1, 2, false, false, false⟩ /- GATE_RANGE -/,
   ⟨0xc00, 512, 3, .u 4, .rwf, 100000, [(10000, 100000000)], 1, 2, false, false, false⟩ /- GATE_ATTACK -/,
   ⟨0xc00, 512, 4, .u 4, .rwf, 20000000, [(0, 2000000000)], 1, 2, false, false, false⟩ /- GATE_HOLD -/]

def rows40b : List ObjRow :=
  [⟨0xc00, 512, 5, .u 4, .rwf, 100000000, [(1000000, 4000000000)], 1, 2, false, false, false⟩ /- GATE_RELEASE -/,
   ⟨0xe00, 512, 0, .bool, .rwf, 0, [(0, 1)], 1, 2, false, false, true⟩ /- COMP_ON -/,
   ⟨0xe00, 512, 1, .s 2, .rwf, (-2000), [(-6000, 0)], 1, 2, false, false, false⟩ /- COMP_THRESHOLD -/,
   ⟨0xe00, 512, 2, .u 2, .rwf, 400, [(100, 10000)], 1, 2, false, false, false⟩ /- COMP_RATIO -/,
   ⟨0xe00, 512, 3, .u 4, .rwf, 10000000, [(50000, 300000000)], 1, 2, false, false, false⟩ /- COMP_ATTACK -/,
   ⟨0xe00, 512, 4, .u 4, .rwf, 150000000, [(5000000, 4000000000)], 1, 2, false, false, false⟩ /- COMP_RELEASE -/,
   ⟨0xe00, 512, 5, .gain, .rwr, 0, [(0, 2400)], 1, 2, false, false, false⟩ /- COMP_MAKEUP -/,
   ⟨0xe00, 512, 6, .u 2, .rwf, 0, [(0, 2400)], 1, 2, false, false, false⟩ /- COMP_KNEE -/,
   ⟨0x1000, 512, 0, .bool, .rwf, 0, [(0, 1)], 1, 2, false, false, true⟩ /- DELAY_ON -/,
   ⟨0x1000, 512, 1, .u 4, .rwf, 0, [(0, 0)], 1, 2, false, false, false⟩ /- DELAY_TIME -/,
   ⟨0x1000, 512, 2, .u 4, .ro, 0, [], 1, 2, false, false, false⟩ /- DELAY_MAX -/]

def rows40 : List ObjRow := rows40a ++ rows40b

def rows50a : List ObjRow :=
  [⟨0x80, 128, 0, .bool, .rwf, 0, [(0, 1)], 1, 2, false, false, true⟩ /- BUS_HPF_ON -/,
   ⟨0x80, 128, 1, .u 4, .rwf, 80000, [(10000, 24000000)], 1, 2, false, false, false⟩ /- BUS_HPF_FREQ -/,
   ⟨0x100, 128, 0, .bool, .rwf, 0, [(0, 1)], 1, 2, false, false, true⟩ /- BUS_EQ_ON -/,
   ⟨0x180, 128, 0, .bool, .rwf, 0, [(0, 1)], 1, 2, false, false, true⟩ /- BUS_EQ_ON -/,
   ⟨0x200, 128, 0, .bool, .rwf, 0, [(0, 1)], 1, 2, false, false, true⟩ /- BUS_EQ_ON -/,
   ⟨0x280, 128, 0, .bool, .rwf, 0, [(0, 1)], 1, 2, false, false, true⟩ /- BUS_EQ_ON -/,
   ⟨0x100, 128, 1, .u 4, .rwf, 100000, [(10000, 24000000)], 1, 2, false, false, false⟩ /- BUS_EQ_FREQ -/,
   ⟨0x180, 128, 1, .u 4, .rwf, 500000, [(10000, 24000000)], 1, 2, false, false, false⟩ /- BUS_EQ_FREQ -/,
   ⟨0x200, 128, 1, .u 4, .rwf, 2000000, [(10000, 24000000)], 1, 2, false, false, false⟩ /- BUS_EQ_FREQ -/,
   ⟨0x280, 128, 1, .u 4, .rwf, 8000000, [(10000, 24000000)], 1, 2, false, false, false⟩ /- BUS_EQ_FREQ -/,
   ⟨0x100, 128, 2, .gain, .rwf, 0, [(-1800, 1800)], 1, 2, false, false, false⟩ /- BUS_EQ_GAIN -/,
   ⟨0x180, 128, 2, .gain, .rwf, 0, [(-1800, 1800)], 1, 2, false, false, false⟩ /- BUS_EQ_GAIN -/,
   ⟨0x200, 128, 2, .gain, .rwf, 0, [(-1800, 1800)], 1, 2, false, false, false⟩ /- BUS_EQ_GAIN -/,
   ⟨0x280, 128, 2, .gain, .rwf, 0, [(-1800, 1800)], 1, 2, false, false, false⟩ /- BUS_EQ_GAIN -/,
   ⟨0x100, 128, 3, .u 2, .rwf, 700, [(100, 20000)], 1, 2, false, false, false⟩ /- BUS_EQ_Q -/,
   ⟨0x180, 128, 3, .u 2, .rwf, 700, [(100, 20000)], 1, 2, false, false, false⟩ /- BUS_EQ_Q -/,
   ⟨0x200, 128, 3, .u 2, .rwf, 700, [(100, 20000)], 1, 2, false, false, false⟩ /- BUS_EQ_Q -/,
   ⟨0x280, 128, 3, .u 2, .rwf, 700, [(100, 20000)], 1, 2, false, false, false⟩ /- BUS_EQ_Q -/,
   ⟨0x380, 128, 0, .bool, .rwf, 0, [(0, 1)], 1, 2, false, false, true⟩ /- BUS_COMP_ON -/,
   ⟨0x380, 128, 1, .s 2, .rwf, (-2000), [(-6000, 0)], 1, 2, false, false, false⟩ /- BUS_COMP_THRESHOLD -/,
   ⟨0x380, 128, 2, .u 2, .rwf, 400, [(100, 10000)], 1, 2, false, false, false⟩ /- BUS_COMP_RATIO -/,
   ⟨0x380, 128, 3, .u 4, .rwf, 10000000, [(50000, 300000000)], 1, 2, false, false, false⟩ /- BUS_COMP_ATTACK -/,
   ⟨0x380, 128, 4, .u 4, .rwf, 150000000, [(5000000, 4000000000)], 1, 2, false, false, false⟩ /- BUS_COMP_RELEASE -/,
   ⟨0x380, 128, 5, .gain, .rwr, 0, [(0, 2400)], 1, 2, false, false, false⟩ /- BUS_COMP_MAKEUP -/,
   ⟨0x380, 128, 6, .u 2, .rwf, 0, [(0, 2400)], 1, 2, false, false, false⟩ /- BUS_COMP_KNEE -/,
   ⟨0x400, 128, 0, .bool, .rwf, 0, [(0, 1)], 1, 2, false, false, true⟩ /- BUS_DELAY_ON -/,
   ⟨0x400, 128, 1, .u 4, .rwf, 0, [(0, 0)], 1, 2, false, false, false⟩ /- BUS_DELAY_TIME -/,
   ⟨0x400, 128, 2, .u 4, .ro, 0, [], 1, 2, false, false, false⟩ /- BUS_DELAY_MAX -/,
   ⟨0x0, 128, 0, .gain, .rwr, 0, [(-14400, 1000), (-32768, -32768)], 1, 2, false, false, false⟩ /- BUS_FADER -/,
   ⟨0x0, 128, 1, .bool, .rwr, 0, [(0, 1)], 1, 2, true, false, false⟩ /- BUS_MUTE -/]

def rows50b : List ObjRow :=
  [⟨0x0, 128, 6, .str, .rw, 0, [], 1, 2, false, false, false⟩ /- BUS_NAME -/,
   ⟨0x0, 128, 7, .bool, .ro, 0, [], 1, 2, false, false, false⟩ /- STEREO_LINK -/]

def rows50 : List ObjRow := rows50a ++ rows50b

def rows58a : List ObjRow :=
  [⟨0x1000, 512, 0, .u 1, .rwf, 0, [(0, 15)], 1, 3, false, false, true⟩ /- OUT_SOURCE -/,
   ⟨0x2000, 512, 0, .u 1, .rwf, 0, [(0, 15)], 1, 3, false, false, true⟩ /- OUT_SOURCE -/,
   ⟨0x1000, 512, 1, .bool, .rwr, 0, [(0, 1)], 1, 2, true, false, false⟩ /- OUT_MUTE -/,
   ⟨0x2000, 512, 1, .bool, .rwr, 0, [(0, 1)], 1, 2, true, false, false⟩ /- OUT_MUTE -/,
   ⟨0x1000, 512, 2, .gain, .rwr, 0, [(-14400, 0), (-32768, -32768)], 1, 2, false, false, false⟩ /- OUT_TRIM -/,
   ⟨0x2000, 512, 2, .gain, .rwr, 0, [(-14400, 0), (-32768, -32768)], 1, 2, false, false, false⟩ /- OUT_TRIM -/,
   ⟨0x1000, 512, 3, .u 4, .rwf, 0, [(0, 0)], 1, 2, false, false, false⟩ /- OUT_DELAY -/,
   ⟨0x2000, 512, 3, .u 4, .rwf, 0, [(0, 0)], 1, 2, false, false, false⟩ /- OUT_DELAY -/,
   ⟨0x1000, 512, 4, .u 4, .ro, 0, [], 1, 2, false, false, false⟩ /- OUT_DELAY_MAX -/,
   ⟨0x2000, 512, 4, .u 4, .ro, 0, [], 1, 2, false, false, false⟩ /- OUT_DELAY_MAX -/,
   ⟨0x1000, 512, 5, .str, .rw, 0, [], 1, 2, false, false, false⟩ /- OUT_NAME -/,
   ⟨0x2000, 512, 5, .str, .rw, 0, [], 1, 2, false, false, false⟩ /- OUT_NAME -/]

def rows58 : List ObjRow := rows58a

def rows5Fa : List ObjRow :=
  [⟨0x0, 1, 0, .u 4, .rw, 5000000, [(0, 2000000000)], 1, 3, false, false, false⟩ /- RAMP_TIME -/,
   ⟨0x0, 1, 1, .u 4, .rw, 2000000, [(0, 50000000)], 1, 3, false, false, false⟩ /- MUTE_TIME -/,
   ⟨0x1, 1, 0, .u 2, .rw, 64, [(0, 4096)], 1, 3, false, false, false⟩ /- XF_LENGTH -/,
   ⟨0x1, 1, 1, .u 1, .rw, 0, [(0, 2)], 1, 3, false, false, false⟩ /- XF_SHAPE -/,
   ⟨0x2, 1, 0, .u 4, .ro, 0, [], 1, 3, false, true, false⟩ /- RAMP_BUSY -/,
   ⟨0x2, 1, 1, .u 4, .ro, 0, [], 1, 3, false, true, false⟩ /- RECALL_COLD_COUNT -/,
   ⟨0x100, 16, 0, .u 2, .ro, 0, [], 1, 3, false, false, false⟩ /- RAMP_SLOTS_FREE -/,
   ⟨0x200, 128, 0, .u 1, .ro, 0, [], 1, 3, false, false, false⟩ /- HR_EXPONENT -/,
   ⟨0x200, 128, 1, .u 2, .ro, 0, [], 1, 3, false, false, false⟩ /- HR_ACTIVE -/]

def rows5F : List ObjRow := rows5Fa

def rows60a : List ObjRow :=
  [⟨0x0, 65536, 0, .gain, .rwr, 0, [(-14400, 2400), (-32768, -32768)], 1, 2, false, false, false⟩ /- SEND_GAIN -/,
   ⟨0x0, 65536, 1, .bool, .rwr, 0, [(0, 1)], 1, 2, false, false, false⟩ /- SEND_ON -/,
   ⟨0x0, 65536, 2, .s 2, .rwr, 0, [(-10000, 10000)], 1, 2, false, false, false⟩ /- SEND_PAN -/,
   ⟨0x0, 65536, 3, .u 1, .rwf, 0, [(0, 3)], 1, 3, false, false, false⟩ /- SEND_TAP -/]

def rows60 : List ObjRow := rows60a

def rows70a : List ObjRow :=
  [⟨0x0, 4096, 0, .s 4, .rwf, 0, [(-2147483648, 2147483647)], 1, 2, false, false, false⟩ /- USER_PARAM -/,
   ⟨0x0, 4096, 1, .s 4, .rwf, 0, [(-2147483648, 2147483647)], 1, 2, false, false, false⟩ /- USER_PARAM -/,
   ⟨0x0, 4096, 2, .s 4, .rwf, 0, [(-2147483648, 2147483647)], 1, 2, false, false, false⟩ /- USER_PARAM -/,
   ⟨0x0, 4096, 3, .s 4, .rwf, 0, [(-2147483648, 2147483647)], 1, 2, false, false, false⟩ /- USER_PARAM -/,
   ⟨0x0, 4096, 4, .s 4, .rwf, 0, [(-2147483648, 2147483647)], 1, 2, false, false, false⟩ /- USER_PARAM -/,
   ⟨0x0, 4096, 5, .s 4, .rwf, 0, [(-2147483648, 2147483647)], 1, 2, false, false, false⟩ /- USER_PARAM -/,
   ⟨0x0, 4096, 6, .s 4, .rwf, 0, [(-2147483648, 2147483647)], 1, 2, false, false, false⟩ /- USER_PARAM -/,
   ⟨0x0, 4096, 7, .s 4, .rwf, 0, [(-2147483648, 2147483647)], 1, 2, false, false, false⟩ /- USER_PARAM -/,
   ⟨0x0, 4096, 8, .s 4, .rwf, 0, [(-2147483648, 2147483647)], 1, 2, false, false, false⟩ /- USER_PARAM -/,
   ⟨0x0, 4096, 9, .s 4, .rwf, 0, [(-2147483648, 2147483647)], 1, 2, false, false, false⟩ /- USER_PARAM -/,
   ⟨0x0, 4096, 10, .s 4, .rwf, 0, [(-2147483648, 2147483647)], 1, 2, false, false, false⟩ /- USER_PARAM -/,
   ⟨0x0, 4096, 11, .s 4, .rwf, 0, [(-2147483648, 2147483647)], 1, 2, false, false, false⟩ /- USER_PARAM -/,
   ⟨0x0, 4096, 12, .s 4, .rwf, 0, [(-2147483648, 2147483647)], 1, 2, false, false, false⟩ /- USER_PARAM -/,
   ⟨0x0, 4096, 13, .s 4, .rwf, 0, [(-2147483648, 2147483647)], 1, 2, false, false, false⟩ /- USER_PARAM -/,
   ⟨0x0, 4096, 14, .s 4, .rwf, 0, [(-2147483648, 2147483647)], 1, 2, false, false, false⟩ /- USER_PARAM -/,
   ⟨0x0, 4096, 15, .s 4, .rwf, 0, [(-2147483648, 2147483647)], 1, 2, false, false, false⟩ /- USER_PARAM -/]

def rows70 : List ObjRow := rows70a

/-- The rows of a page: realm pages (13 Table 13-1) and device pages 0x01 to 0x03 (13 Table 13-2). -/
def objPage (page : Nat) : List ObjRow :=
  if page = 0x1 then rows01
  else if page = 0x2 then rows02
  else if page = 0x3 then rows03
  else if page = 0x10 then rows10
  else if page = 0x11 then rows11
  else if page = 0x12 then rows12
  else if page = 0x14 then rows14
  else if page = 0x16 then rows16
  else if page = 0x18 then rows18
  else if page = 0x1a then rows1A
  else if page = 0x20 then rows20
  else if page = 0x22 then rows22
  else if page = 0x24 then rows24
  else if page = 0x26 then rows26
  else if page = 0x28 then rows28
  else if page = 0x2a then rows2A
  else if page = 0x30 then rows30
  else if page = 0x40 then rows40
  else if page = 0x50 then rows50
  else if page = 0x58 then rows58
  else if page = 0x5f then rows5F
  else if page = 0x60 then rows60
  else if page = 0x70 then rows70
  else []

/-- The row of an object, if the page's table lists it (13 R447). -/
def objRow (page index elem : Nat) : Option ObjRow :=
  (objPage page).find? (fun r => r.elem == elem && decide (r.base ≤ index) && decide (index < r.base + r.count))

/-! Names of the keys; an indexed object's key is its name + 16 × index. -/

def o01_VENDOR : Nat := okey 0x1 0x0 0
def o01_PART : Nat := okey 0x1 0x0 1
def o01_REVISION : Nat := okey 0x1 0x1 0
def o01_DEVICE_SERIAL : Nat := okey 0x1 0x2 0
def o01_MAC_BASE : Nat := okey 0x1 0x3 0
def o01_DEVICE_PUBKEY : Nat := okey 0x1 0x4 0
def o01_IDENTITY_PROVE : Nat := okey 0x1 0x4 1
def o01_ROOT_KEY_ID : Nat := okey 0x1 0x5 0
def o01_CUSTOMER_KEY_HASH : Nat := okey 0x1 0x5 1
def o01_KEY_HASH_STATE : Nat := okey 0x1 0x5 2
def o01_KEY_HASH_BURN : Nat := okey 0x1 0x5 3
def o02_DEV_MODE : Nat := okey 0x2 0x0 0
def o02_DEV_MODE_REQUEST : Nat := okey 0x2 0x0 1
def o02_VCORE_SETPOINT : Nat := okey 0x2 0x1 0
def o02_VCORE_CONTRIBUTORS : Nat := okey 0x2 0x1 1
def o02_SWEEP_REALM : Nat := okey 0x2 0x1 2
def o02_DIE_TEMP_MAX : Nat := okey 0x2 0x1 3
def o02_REALM_MODE : Nat := okey 0x2 0x100 0
def o02_REALM_READY : Nat := okey 0x2 0x100 1
def o02_REALM_START : Nat := okey 0x2 0x100 2
def o02_REALM_STOP : Nat := okey 0x2 0x100 3
def o02_REALM_RESET : Nat := okey 0x2 0x100 4
def o02_APERTURE_TIMEOUTS : Nat := okey 0x2 0x100 5
def o03_AON_TIMER : Nat := okey 0x3 0x0 0
def o03_WAKE_ENABLE : Nat := okey 0x3 0x0 1
def o03_WAKE_CAUSE : Nat := okey 0x3 0x0 2
def o03_GPIO_W_POLARITY : Nat := okey 0x3 0x0 3
def o10_REALM_NUMBER : Nat := okey 0x10 0x0 0
def o10_REALM_NAME : Nat := okey 0x10 0x0 1
def o10_MODE : Nat := okey 0x10 0x1 0
def o10_MODE_REQUEST : Nat := okey 0x10 0x1 1
def o10_MODE_SINCE : Nat := okey 0x10 0x1 2
def o10_READY : Nat := okey 0x10 0x2 0
def o10_READY_AT : Nat := okey 0x10 0x2 1
def o11_EVENT_LOG : Nat := okey 0x11 0x0 0
def o11_EVENT_NEXT : Nat := okey 0x11 0x0 1
def o11_COUNTERS_CLEAR : Nat := okey 0x11 0x1 0
def o11_COUNTERS_CLEARED_AT : Nat := okey 0x11 0x1 1
def o12_TG : Nat := okey 0x12 0x0 0
def o12_T_WORST : Nat := okey 0x12 0x1 0
def o12_T_ADM : Nat := okey 0x12 0x2 0
def o12_GUARD : Nat := okey 0x12 0x3 0
def o12_GUARD_FLOOR : Nat := okey 0x12 0x4 0
def o12_SLACK_MARGIN : Nat := okey 0x12 0x5 0
def o12_VCORE_REQUEST : Nat := okey 0x12 0x6 0
def o12_VCORE_MERGED : Nat := okey 0x12 0x7 0
def o12_DIE_TEMP : Nat := okey 0x12 0x8 0
def o12_STATUS : Nat := okey 0x12 0x9 0
def o12_REPLICA_FAILED : Nat := okey 0x12 0xa 0
def o12_FIXED_REQUEST : Nat := okey 0x12 0xb 0
def o12_SWEEP_LAST : Nat := okey 0x12 0x10 0
def o12_T_NORM : Nat := okey 0x12 0x11 0
def o12_DRIFT : Nat := okey 0x12 0x12 0
def o12_YEARS_TO_LIMIT : Nat := okey 0x12 0x13 0
def o12_OVERRUN_COUNT : Nat := okey 0x12 0x100 0
def o12_OVERRUN_MUTED : Nat := okey 0x12 0x100 1
def o12_LATENESS : Nat := okey 0x12 0x100 2
def o12_LATE_WRITES : Nat := okey 0x12 0x100 3
def o12_OVERRUN_CLEAR : Nat := okey 0x12 0x100 4
def o14_FRAME_NUMBER : Nat := okey 0x14 0x0 0
def o14_RUNNING_EPOCH : Nat := okey 0x14 0x1 0
def o14_RUNNING_IMAGE_ID : Nat := okey 0x14 0x2 0
def o14_ACTIVE_BANK : Nat := okey 0x14 0x3 0
def o14_BANK_STATE_A : Nat := okey 0x14 0x4 0
def o14_BANK_STATE_B : Nat := okey 0x14 0x4 1
def o14_LOAD_BEGIN : Nat := okey 0x14 0x5 0
def o14_LOAD_ABORT : Nat := okey 0x14 0x5 1
def o14_LOAD_ERROR : Nat := okey 0x14 0x6 0
def o14_LOAD_ERROR_OFFSET : Nat := okey 0x14 0x6 1
def o14_LOAD_BYTES : Nat := okey 0x14 0x6 2
def o14_LOAD_STATUS : Nat := okey 0x14 0x6 3
def o14_SWAP : Nat := okey 0x14 0x7 0
def o14_SWAP_CANCEL : Nat := okey 0x14 0x7 1
def o14_SWAP_ARMED : Nat := okey 0x14 0x7 2
def o14_CRITICAL_STEPS : Nat := okey 0x14 0x8 0
def o14_ADMISSION_HEADROOM : Nat := okey 0x14 0x8 1
def o14_PENDING_CRITICAL_STEPS : Nat := okey 0x14 0x9 0
def o14_ADMIT_STEPS : Nat := okey 0x14 0x100 0
def o14_ADMIT_STEPS_SWAP : Nat := okey 0x14 0x100 1
def o14_SLACK_LATE : Nat := okey 0x14 0x100 2
def o14_EXCH_VIOLATION : Nat := okey 0x14 0x100 3
def o14_SLACK_STEPS : Nat := okey 0x14 0x100 4
def o16_SATURATIONS : Nat := okey 0x16 0x100 0
def o16_DEEP_VIOLATION : Nat := okey 0x16 0x100 1
def o16_PROGRAM_END : Nat := okey 0x16 0x100 2
def o16_ILLEGAL_SLOT : Nat := okey 0x16 0x100 3
def o16_POISON_COMPARE : Nat := okey 0x16 0x100 4
def o18_CE_THRESHOLD : Nat := okey 0x18 0x0 0
def o18_COUNT_CLEAR : Nat := okey 0x18 0x0 1
def o18_SCRUB_PERIOD : Nat := okey 0x18 0x1 0
def o18_SCRUB_PASSES : Nat := okey 0x18 0x1 1
def o18_MBIST_START : Nat := okey 0x18 0x2 0
def o18_MBIST_STATE : Nat := okey 0x18 0x2 1
def o18_ERR_INJECT : Nat := okey 0x18 0x3 0
def o18_CE_COUNT : Nat := okey 0x18 0x100 0
def o18_UE_COUNT : Nat := okey 0x18 0x100 1
def o18_LAST_ERROR : Nat := okey 0x18 0x100 2
def o18_REPAIR : Nat := okey 0x18 0x100 3
def o18_MBIST_RESULT : Nat := okey 0x18 0x100 4
def o18_MBIST_FAILS : Nat := okey 0x18 0x100 5
def o18_POWER_STATE : Nat := okey 0x18 0x100 6
def o18_POWER_FAULTS : Nat := okey 0x18 0x100 7
def o1A_TALLY_WINDOW : Nat := okey 0x1a 0x0 0
def o1A_MUTE_AFTER : Nat := okey 0x1a 0x0 1
def o1A_P0_MUTED : Nat := okey 0x1a 0x0 2
def o1A_HEALTH_MUTED : Nat := okey 0x1a 0x0 3
def o1A_SAFE_ON_HEALTH : Nat := okey 0x1a 0x0 4
def o1A_AUTO_CLEAR : Nat := okey 0x1a 0x0 5
def o1A_TALLY_MUTED_CHANNELS : Nat := okey 0x1a 0x1 0
def o1A_POISON_CLEAR : Nat := okey 0x1a 0x1 1
def o1A_POISON_CLEAR_STATE : Nat := okey 0x1a 0x1 2
def o1A_POISON_CLEARED : Nat := okey 0x1a 0x1 3
def o1A_SAFE_ENTER : Nat := okey 0x1a 0x2 0
def o1A_SAFE_EXIT : Nat := okey 0x1a 0x2 1
def o1A_SAFE_CAUSE : Nat := okey 0x1a 0x2 2
def o1A_EGRESS_POISON : Nat := okey 0x1a 0x3 0
def o1A_SERIALISER_ZERO : Nat := okey 0x1a 0x300 0
def o1A_TALLY_TILE : Nat := okey 0x1a 0x100 0
def o1A_TALLY_COUNT : Nat := okey 0x1a 0x1000 0
def o1A_2000_TALLY_COUNT : Nat := okey 0x1a 0x2000 0
def o1A_TALLY_MUTED : Nat := okey 0x1a 0x1000 1
def o1A_2000_TALLY_MUTED : Nat := okey 0x1a 0x2000 1
def o1A_TALLY_UNMUTE : Nat := okey 0x1a 0x1000 2
def o1A_2000_TALLY_UNMUTE : Nat := okey 0x1a 0x2000 2
def o1A_REPEATS : Nat := okey 0x1a 0x1000 3
def o1A_2000_REPEATS : Nat := okey 0x1a 0x2000 3
def o1A_REPEAT_ZERO : Nat := okey 0x1a 0x2000 4
def o20_MUTE_PIN_STATE : Nat := okey 0x20 0x0 0
def o20_MUTE_RELEASE : Nat := okey 0x20 0x0 1
def o20_MUTE_PIN_ENABLE : Nat := okey 0x20 0x0 2
def o20_MUTE_PIN_COUNT : Nat := okey 0x20 0x0 3
def o20_ENABLE : Nat := okey 0x20 0x100 0
def o20_ROLE : Nat := okey 0x20 0x100 1
def o20_SLOTS : Nat := okey 0x20 0x100 2
def o20_SLOT_WIDTH : Nat := okey 0x20 0x100 3
def o20_WORD_LEN : Nat := okey 0x20 0x100 4
def o20_OFFSET : Nat := okey 0x20 0x100 5
def o20_FSYNC_FORM : Nat := okey 0x20 0x100 6
def o20_FSYNC_POL : Nat := okey 0x20 0x100 7
def o20_BCLK_EDGE : Nat := okey 0x20 0x100 8
def o20_IN_MASK : Nat := okey 0x20 0x100 9
def o20_OUT_MASK : Nat := okey 0x20 0x100 10
def o20_OUT_IDLE : Nat := okey 0x20 0x100 11
def o20_GROUP : Nat := okey 0x20 0x100 12
def o20_START_FRAMES : Nat := okey 0x20 0x100 13
def o20_STOP_FRAMES : Nat := okey 0x20 0x100 14
def o20_LOSS_TIMEOUT : Nat := okey 0x20 0x100 15
def o20_REQUAL_FRAMES : Nat := okey 0x20 0x200 0
def o20_FRAME_TOL : Nat := okey 0x20 0x200 1
def o20_INVALID_LIMIT : Nat := okey 0x20 0x200 2
def o20_SLIP_GUARD : Nat := okey 0x20 0x200 3
def o20_STATE : Nat := okey 0x20 0x300 0
def o20_CONFIG_ERROR : Nat := okey 0x20 0x300 1
def o20_RATE_MEASURED : Nat := okey 0x20 0x300 2
def o20_BUOY_LEVEL : Nat := okey 0x20 0x300 3
def o20_LATENCY_FRAMES : Nat := okey 0x20 0x300 4
def o20_PIN_FAULT : Nat := okey 0x20 0x300 5
def o20_ALIGN_OUT : Nat := okey 0x20 0x300 6
def o20_LOSSES : Nat := okey 0x20 0x400 0
def o20_INVALID_FRAMES : Nat := okey 0x20 0x400 1
def o20_CONCEALED_FRAMES : Nat := okey 0x20 0x400 2
def o20_SLIPS : Nat := okey 0x20 0x400 3
def o20_OUT_CLIPS : Nat := okey 0x20 0x400 4
def o20_ANCHOR : Nat := okey 0x20 0x501 0
def o20_ALIGN_TOL : Nat := okey 0x20 0x501 1
def o20_REJOIN_FRAMES : Nat := okey 0x20 0x501 2
def o22_SAMPLE_RATE : Nat := okey 0x22 0x0 0
def o22_REF_PATH : Nat := okey 0x22 0x0 1
def o22_PLL_STATE : Nat := okey 0x22 0x1 0
def o22_LOCK_WINDOW : Nat := okey 0x22 0x1 1
def o22_LOCK_TOL : Nat := okey 0x22 0x1 2
def o22_LOCK_WINDOWS : Nat := okey 0x22 0x1 3
def o22_UNLOCK_TOL : Nat := okey 0x22 0x1 4
def o22_LOCK_BOUND : Nat := okey 0x22 0x1 5
def o22_GLIDE_INTERVAL : Nat := okey 0x22 0x1 6
def o22_RELOCK_SETTLE : Nat := okey 0x22 0x1 7
def o22_UNLOCKS : Nat := okey 0x22 0x1 8
def o22_RELOCK_FAILS : Nat := okey 0x22 0x1 9
def o22_SELECTED : Nat := okey 0x22 0x2 0
def o22_REF_STATE : Nat := okey 0x22 0x2 1
def o22_REVERTIVE : Nat := okey 0x22 0x2 2
def o22_HOLDOFF : Nat := okey 0x22 0x2 3
def o22_DISAGREE : Nat := okey 0x22 0x2 4
def o22_VOTE : Nat := okey 0x22 0x2 5
def o22_QUAL_TIME : Nat := okey 0x22 0x2 6
def o22_PULL_RANGE : Nat := okey 0x22 0x2 7
def o22_LOOP_BW : Nat := okey 0x22 0x2 8
def o22_PULL_RATE : Nat := okey 0x22 0x2 9
def o22_FREE_SLEW : Nat := okey 0x22 0x2 10
def o22_STEERING : Nat := okey 0x22 0x2 11
def o22_PHASE_ERROR : Nat := okey 0x22 0x2 12
def o22_SWITCHES : Nat := okey 0x22 0x2 13
def o22_DISAGREE_COUNT : Nat := okey 0x22 0x2 14
def o22_RANK : Nat := okey 0x22 0x100 0
def o22_CAND_STATE : Nat := okey 0x22 0x100 1
def o22_CAND_OFFSET : Nat := okey 0x22 0x100 2
def o22_GLITCHES : Nat := okey 0x22 0x100 3
def o22_CAND_LOSSES : Nat := okey 0x22 0x100 4
def o22_CAND_MODE : Nat := okey 0x22 0x100 5
def o22_CAND_POL : Nat := okey 0x22 0x100 6
def o22_TICK_OFFSET : Nat := okey 0x22 0x200 0
def o22_WCK_OUT_MODE : Nat := okey 0x22 0x200 1
def o22_PPS_OUT_MODE : Nat := okey 0x22 0x200 2
def o22_PPS_OFFSET : Nat := okey 0x22 0x200 3
def o22_PPS_WIDTH : Nat := okey 0x22 0x200 4
def o22_PHASE_ADJUST : Nat := okey 0x22 0x200 5
def o22_MCLK_SEL : Nat := okey 0x22 0x300 0
def o22_AUX_ENABLE : Nat := okey 0x22 0x400 0
def o22_AUX_FREQ : Nat := okey 0x22 0x400 1
def o22_AUX_ACTUAL : Nat := okey 0x22 0x400 2
def o22_SSC_MODE : Nat := okey 0x22 0x400 3
def o22_SSC_DEPTH : Nat := okey 0x22 0x400 4
def o22_SSC_RATE : Nat := okey 0x22 0x400 5
def o24_PTP_ENABLE : Nat := okey 0x24 0x0 0
def o24_PTP_PROFILE : Nat := okey 0x24 0x0 1
def o24_PTP_DOMAIN : Nat := okey 0x24 0x0 2
def o24_DELAY_MECH : Nat := okey 0x24 0x0 3
def o24_PTP_PORT : Nat := okey 0x24 0x0 4
def o24_SLAVE_ONLY : Nat := okey 0x24 0x0 5
def o24_PRIORITY1 : Nat := okey 0x24 0x0 6
def o24_PRIORITY2 : Nat := okey 0x24 0x0 7
def o24_LOG_SYNC : Nat := okey 0x24 0x0 8
def o24_LOG_ANNOUNCE : Nat := okey 0x24 0x0 9
def o24_LOG_DELAY_REQ : Nat := okey 0x24 0x0 10
def o24_ANNOUNCE_TIMEOUT : Nat := okey 0x24 0x0 11
def o24_GM_IDENTITY : Nat := okey 0x24 0x0 12
def o24_PTP_STATE : Nat := okey 0x24 0x0 13
def o24_PTP_FAILOVERS : Nat := okey 0x24 0x0 14
def o24_TWO_STEP_DISCARDS : Nat := okey 0x24 0x0 15
def o24_TB_STATE : Nat := okey 0x24 0x1 0
def o24_PTP_TIME : Nat := okey 0x24 0x1 1
def o24_OFFSET : Nat := okey 0x24 0x1 2
def o24_MEAN_PATH_DELAY : Nat := okey 0x24 0x1 3
def o24_RATE_FRAC : Nat := okey 0x24 0x1 4
def o24_LOCK_THRESHOLD : Nat := okey 0x24 0x1 5
def o24_UNLOCK_THRESHOLD : Nat := okey 0x24 0x1 6
def o24_STEP_THRESHOLD : Nat := okey 0x24 0x1 7
def o24_SERVO_BW : Nat := okey 0x24 0x1 8
def o24_TIME_SET : Nat := okey 0x24 0x1 9
def o24_GM_CHANGES : Nat := okey 0x24 0x1 10
def o24_PPS_IN_TS : Nat := okey 0x24 0x1 11
def o24_PPS_IN_ERROR : Nat := okey 0x24 0x1 12
def o24_MEDIA_SLIPS : Nat := okey 0x24 0x1 13
def o24_NET_BANKS : Nat := okey 0x24 0x1 14
def o24_LINK_ENABLE : Nat := okey 0x24 0x100 0
def o24_LINK_STATE : Nat := okey 0x24 0x100 1
def o24_MAC_ADDRESS : Nat := okey 0x24 0x100 2
def o24_IP_ADDRESS : Nat := okey 0x24 0x100 3
def o24_IP_PREFIX : Nat := okey 0x24 0x100 4
def o24_GATEWAY : Nat := okey 0x24 0x100 5
def o24_VLAN_ID : Nat := okey 0x24 0x100 6
def o24_DSCP_MEDIA : Nat := okey 0x24 0x100 7
def o24_DSCP_PTP : Nat := okey 0x24 0x100 8
def o24_RX_DROPS : Nat := okey 0x24 0x100 9
def o24_FCS_ERRORS : Nat := okey 0x24 0x100 10
def o24_MODULE_ID : Nat := okey 0x24 0x100 11
def o24_MODULE_DIAG : Nat := okey 0x24 0x100 12
def o26_ENABLE : Nat := okey 0x26 0x100 0
def o26_300_ENABLE : Nat := okey 0x26 0x300 0
def o26_GROUP_A : Nat := okey 0x26 0x100 1
def o26_GROUP_B : Nat := okey 0x26 0x100 2
def o26_SOURCE_A : Nat := okey 0x26 0x100 3
def o26_SOURCE_B : Nat := okey 0x26 0x100 4
def o26_UDP_PORT : Nat := okey 0x26 0x100 5
def o26_300_UDP_PORT : Nat := okey 0x26 0x300 3
def o26_PT : Nat := okey 0x26 0x100 6
def o26_300_PT : Nat := okey 0x26 0x300 4
def o26_ENCODING : Nat := okey 0x26 0x100 7
def o26_300_ENCODING : Nat := okey 0x26 0x300 5
def o26_CH : Nat := okey 0x26 0x100 8
def o26_300_CH : Nat := okey 0x26 0x300 6
def o26_PTIME : Nat := okey 0x26 0x100 9
def o26_300_PTIME : Nat := okey 0x26 0x300 7
def o26_FIRST : Nat := okey 0x26 0x100 10
def o26_300_FIRST : Nat := okey 0x26 0x300 8
def o26_RTP_OFFSET : Nat := okey 0x26 0x100 11
def o26_300_RTP_OFFSET : Nat := okey 0x26 0x300 9
def o26_SSRC : Nat := okey 0x26 0x100 12
def o26_300_SSRC : Nat := okey 0x26 0x300 10
def o26_PRES_OFFSET : Nat := okey 0x26 0x100 13
def o26_CONCEAL : Nat := okey 0x26 0x100 14
def o26_STATE : Nat := okey 0x26 0x200 0
def o26_400_STATE : Nat := okey 0x26 0x400 0
def o26_ERROR : Nat := okey 0x26 0x200 1
def o26_400_ERROR : Nat := okey 0x26 0x400 1
def o26_RX_LATE : Nat := okey 0x26 0x200 2
def o26_RX_LOST : Nat := okey 0x26 0x200 3
def o26_RX_DUPLICATES : Nat := okey 0x26 0x200 4
def o26_RX_DISCARDS : Nat := okey 0x26 0x200 5
def o26_LEG_MISSES_A : Nat := okey 0x26 0x200 6
def o26_LEG_MISSES_B : Nat := okey 0x26 0x200 7
def o26_ARRIVAL_MARGIN : Nat := okey 0x26 0x200 8
def o26_DEST : Nat := okey 0x26 0x300 1
def o26_TX_LEGS : Nat := okey 0x26 0x300 2
def o26_TX_TTL : Nat := okey 0x26 0x300 11
def o26_TX_PACKETS : Nat := okey 0x26 0x400 2
def o26_TX_CLIPS : Nat := okey 0x26 0x400 3
def o28_BILUNO_PORT : Nat := okey 0x28 0x0 0
def o28_UNAUTH_ROLE : Nat := okey 0x28 0x0 1
def o28_SESSION_TIMEOUT : Nat := okey 0x28 0x0 2
def o28_SESSION_LIMIT : Nat := okey 0x28 0x0 3
def o28_SESSIONS_OPEN : Nat := okey 0x28 0x0 4
def o28_SHED_LEVEL : Nat := okey 0x28 0x0 5
def o28_STAMPED_PENDING : Nat := okey 0x28 0x0 6
def o28_RX_MESSAGES : Nat := okey 0x28 0x1 0
def o28_CRC_ERRORS : Nat := okey 0x28 0x1 1
def o28_AUTH_FAILS : Nat := okey 0x28 0x1 2
def o28_MALFORMED_COUNT : Nat := okey 0x28 0x1 3
def o28_BUSY_SENT : Nat := okey 0x28 0x1 4
def o28_P0_ACCEPTED : Nat := okey 0x28 0x1 5
def o28_P1_ACCEPTED : Nat := okey 0x28 0x1 6
def o28_P0_WORST : Nat := okey 0x28 0x1 7
def o28_P1_WORST : Nat := okey 0x28 0x1 8
def o28_REPLY_WORST : Nat := okey 0x28 0x1 9
def o28_EVENTS_LOST : Nat := okey 0x28 0x1 10
def o28_KEY : Nat := okey 0x28 0x100 0
def o28_KEY_ROLE : Nat := okey 0x28 0x100 1
def o2A_FW_VERSION : Nat := okey 0x2a 0x0 0
def o2A_PATCH_ID : Nat := okey 0x2a 0x0 1
def o2A_PATCH_STATE : Nat := okey 0x2a 0x0 2
def o2A_KEEPER_BUSY : Nat := okey 0x2a 0x0 3
def o2A_DECODE_POLICY : Nat := okey 0x2a 0x1 0
def o2A_BUS_WATCH_COUNT : Nat := okey 0x2a 0x1 1
def o30_PAIR_MODE : Nat := okey 0x30 0x0 0
def o30_PAIR_ROLE : Nat := okey 0x30 0x0 1
def o30_PARTNER_ADDRESS : Nat := okey 0x30 0x0 2
def o30_BEACON_GROUP : Nat := okey 0x30 0x0 3
def o30_BEACON_TIMEOUT : Nat := okey 0x30 0x0 4
def o30_TAKE : Nat := okey 0x30 0x0 5
def o30_HEALTH : Nat := okey 0x30 0x1 0
def o30_PARTNER_HEALTH : Nat := okey 0x30 0x1 1
def o30_PARTNER_FRAME : Nat := okey 0x30 0x1 2
def o30_DIGEST_LAST : Nat := okey 0x30 0x1 3
def o30_DIGEST_MISMATCHES : Nat := okey 0x30 0x1 4
def o30_BEACONS_MISSED : Nat := okey 0x30 0x1 5
def o30_TAKEOVERS : Nat := okey 0x30 0x1 6
def o30_REFEREE_ENABLE : Nat := okey 0x30 0x2 0
def o30_REFEREE_ACTIVE : Nat := okey 0x30 0x2 1
def o30_REFEREE_STANDBY : Nat := okey 0x30 0x2 2
def o40_FADER : Nat := okey 0x40 0x0 0
def o40_MUTE : Nat := okey 0x40 0x0 1
def o40_PAN : Nat := okey 0x40 0x0 2
def o40_INPUT : Nat := okey 0x40 0x0 3
def o40_TRIM : Nat := okey 0x40 0x0 4
def o40_POLARITY : Nat := okey 0x40 0x0 5
def o40_NAME : Nat := okey 0x40 0x0 6
def o40_HPF_ON : Nat := okey 0x40 0x200 0
def o40_HPF_FREQ : Nat := okey 0x40 0x200 1
def o40_EQ_ON : Nat := okey 0x40 0x400 0
def o40_EQ_FREQ : Nat := okey 0x40 0x400 1
def o40_EQ_GAIN : Nat := okey 0x40 0x400 2
def o40_EQ_Q : Nat := okey 0x40 0x400 3
def o40_GATE_ON : Nat := okey 0x40 0xc00 0
def o40_GATE_THRESHOLD : Nat := okey 0x40 0xc00 1
def o40_GATE_RANGE : Nat := okey 0x40 0xc00 2
def o40_GATE_ATTACK : Nat := okey 0x40 0xc00 3
def o40_GATE_HOLD : Nat := okey 0x40 0xc00 4
def o40_GATE_RELEASE : Nat := okey 0x40 0xc00 5
def o40_COMP_ON : Nat := okey 0x40 0xe00 0
def o40_COMP_THRESHOLD : Nat := okey 0x40 0xe00 1
def o40_COMP_RATIO : Nat := okey 0x40 0xe00 2
def o40_COMP_ATTACK : Nat := okey 0x40 0xe00 3
def o40_COMP_RELEASE : Nat := okey 0x40 0xe00 4
def o40_COMP_MAKEUP : Nat := okey 0x40 0xe00 5
def o40_COMP_KNEE : Nat := okey 0x40 0xe00 6
def o40_DELAY_ON : Nat := okey 0x40 0x1000 0
def o40_DELAY_TIME : Nat := okey 0x40 0x1000 1
def o40_DELAY_MAX : Nat := okey 0x40 0x1000 2
def o50_BUS_HPF_ON : Nat := okey 0x50 0x80 0
def o50_BUS_HPF_FREQ : Nat := okey 0x50 0x80 1
def o50_BUS_EQ_ON : Nat := okey 0x50 0x100 0
def o50_BUS_EQ_FREQ : Nat := okey 0x50 0x100 1
def o50_BUS_EQ_GAIN : Nat := okey 0x50 0x100 2
def o50_BUS_EQ_Q : Nat := okey 0x50 0x100 3
def o50_BUS_COMP_ON : Nat := okey 0x50 0x380 0
def o50_BUS_COMP_THRESHOLD : Nat := okey 0x50 0x380 1
def o50_BUS_COMP_RATIO : Nat := okey 0x50 0x380 2
def o50_BUS_COMP_ATTACK : Nat := okey 0x50 0x380 3
def o50_BUS_COMP_RELEASE : Nat := okey 0x50 0x380 4
def o50_BUS_COMP_MAKEUP : Nat := okey 0x50 0x380 5
def o50_BUS_COMP_KNEE : Nat := okey 0x50 0x380 6
def o50_BUS_DELAY_ON : Nat := okey 0x50 0x400 0
def o50_BUS_DELAY_TIME : Nat := okey 0x50 0x400 1
def o50_BUS_DELAY_MAX : Nat := okey 0x50 0x400 2
def o50_BUS_FADER : Nat := okey 0x50 0x0 0
def o50_BUS_MUTE : Nat := okey 0x50 0x0 1
def o50_BUS_NAME : Nat := okey 0x50 0x0 6
def o50_STEREO_LINK : Nat := okey 0x50 0x0 7
def o58_OUT_SOURCE : Nat := okey 0x58 0x1000 0
def o58_2000_OUT_SOURCE : Nat := okey 0x58 0x2000 0
def o58_OUT_MUTE : Nat := okey 0x58 0x1000 1
def o58_2000_OUT_MUTE : Nat := okey 0x58 0x2000 1
def o58_OUT_TRIM : Nat := okey 0x58 0x1000 2
def o58_2000_OUT_TRIM : Nat := okey 0x58 0x2000 2
def o58_OUT_DELAY : Nat := okey 0x58 0x1000 3
def o58_2000_OUT_DELAY : Nat := okey 0x58 0x2000 3
def o58_OUT_DELAY_MAX : Nat := okey 0x58 0x1000 4
def o58_2000_OUT_DELAY_MAX : Nat := okey 0x58 0x2000 4
def o58_OUT_NAME : Nat := okey 0x58 0x1000 5
def o58_2000_OUT_NAME : Nat := okey 0x58 0x2000 5
def o5F_RAMP_TIME : Nat := okey 0x5f 0x0 0
def o5F_MUTE_TIME : Nat := okey 0x5f 0x0 1
def o5F_XF_LENGTH : Nat := okey 0x5f 0x1 0
def o5F_XF_SHAPE : Nat := okey 0x5f 0x1 1
def o5F_RAMP_BUSY : Nat := okey 0x5f 0x2 0
def o5F_RECALL_COLD_COUNT : Nat := okey 0x5f 0x2 1
def o5F_RAMP_SLOTS_FREE : Nat := okey 0x5f 0x100 0
def o5F_HR_EXPONENT : Nat := okey 0x5f 0x200 0
def o5F_HR_ACTIVE : Nat := okey 0x5f 0x200 1
def o60_SEND_GAIN : Nat := okey 0x60 0x0 0
def o60_SEND_ON : Nat := okey 0x60 0x0 1
def o60_SEND_PAN : Nat := okey 0x60 0x0 2
def o60_SEND_TAP : Nat := okey 0x60 0x0 3
def o70_USER_PARAM : Nat := okey 0x70 0x0 0

end Sys2Proof.Machine
end

