-- ==== Sys2Proof/Machine/Ops.lean ====
section
/-!
DEFINITION. The named operations over the state: realms, objects and counters, events and interrupts, tiles, and the
stored units of the memories with their code (07 R249 to R257).
MARKED CHOICES of this file (DESIGN CHOICE, DEDUCED or PRESUMED): log entries 1 to 3, 29, 40 and 69.
-/
namespace Sys2Proof.Machine

abbrev Result := Host.Outcome State Fault Refusal

/-! ## State access -/

def State.realm (s : State) (m : RealmId) : Realm := s.realms.get m
def State.setRealm (s : State) (m : RealmId) (r : Realm) : State := { s with realms := s.realms.set m r }
def State.modRealm (s : State) (m : RealmId) (f : Realm → Realm) : State := s.setRealm m (f (s.realm m))
def State.mem (s : State) (m : RealmId) : List Host.Cell := s.mems.get m
def State.setMem (s : State) (m : RealmId) (c : List Host.Cell) : State := { s with mems := s.mems.set m c }
/-- The instant of a command; time never goes back (log entry 1). -/
def State.at (s : State) (t : Time) : State := { s with now := if s.now ≤ t then t else s.now }
/-- A free natural number and the state that has drawn it (log entry 2). -/
def State.draw (s : State) : Nat × State := (Config.freeNat s.free, { s with free := s.free + 1 })

def State.modFrame (s : State) (m : RealmId) (f : FrameSt → FrameSt) : State :=
  s.modRealm m (fun r => { r with frame := f r.frame })
def State.modMemory (s : State) (m : RealmId) (f : MemSt → MemSt) : State :=
  s.modRealm m (fun r => { r with memory := f r.memory })
def State.modBil (s : State) (m : RealmId) (f : BilSt → BilSt) : State :=
  s.modRealm m (fun r => { r with bil := f r.bil })
def State.modBus (s : State) (m : RealmId) (f : BusSt → BusSt) : State :=
  s.modRealm m (fun r => { r with bus := f r.bus })
def State.modOut (s : State) (m : RealmId) (f : OutSt → OutSt) : State :=
  s.modRealm m (fun r => { r with out := f r.out })
def State.modGov (s : State) (m : RealmId) (f : GovSt → GovSt) : State :=
  s.modRealm m (fun r => { r with gov := f r.gov })
def State.frame (s : State) (m : RealmId) : FrameSt := (s.realm m).frame

/-! ## Tiles -/

def State.tile (s : State) (m : RealmId) (k : Nat) : Tile := tget Tile.reset (s.realm m).tiles k
def State.setTile (s : State) (m : RealmId) (k : Nat) (x : Tile) : State :=
  s.modRealm m (fun r => { r with tiles := tput Tile.reset r.tiles k x })
def State.modTile (s : State) (m : RealmId) (k : Nat) (f : Tile → Tile) : State :=
  s.setTile m k (f (s.tile m k))

/-- Apply to the numbers 0 to n − 1 in turn. -/
def forN {α : Type} : Nat → (Nat → α → α) → α → α
  | 0, _, a => a
  | n + 1, f, a => f n (forN n f a)

/-! ## Objects -/

/-- The default of an object (12 R410). -/
def objDflt (k : Nat) : Int :=
  match objRow (k / 1048576) (k / 16 % 65536) (k % 16) with
  | some r => r.dflt
  | none => 0

def Realm.oget (r : Realm) (k : Nat) : Int := tget (objDflt k) r.objs k
def Realm.onat (r : Realm) (k : Nat) : Nat := (r.oget k).toNat
/-- The default of an object of realm `m`: MAC_ADDRESS (11 R377), SSRC of transmit streams (11 Table 11-8) and the number of
the realm depend on the realm, and the RANK of PTP differs from the others' (10 Table 10-6). -/
def realmDflt (m : RealmId) (k : Nat) : Int :=
  if k = o10_REALM_NUMBER then (m.val : Int)
  else if k = o22_RANK then 0
  else if k = o24_MAC_ADDRESS ∨ k = o24_MAC_ADDRESS + 16 then
    (((Config.macBase + 2 * m.val + (k - o24_MAC_ADDRESS) / 16) % 2 ^ 48 : Nat) : Int)
  else if o26_300_SSRC ≤ k ∧ k ≤ o26_300_SSRC + 16 * 63 ∧ (k - o26_300_SSRC) % 16 = 0 then
    ((0x07800000 + 64 * m.val + (k - o26_300_SSRC) / 16 : Nat) : Int)
  else objDflt k

def State.oget (s : State) (m : RealmId) (k : Nat) : Int := tget (realmDflt m k) (s.realm m).objs k
def State.onat (s : State) (m : RealmId) (k : Nat) : Nat := (s.oget m k).toNat
def State.oput (s : State) (m : RealmId) (k : Nat) (v : Int) : State :=
  s.modRealm m (fun r => { r with objs := tput (realmDflt m k) r.objs k v })

/-- A counter that stops at 0xFFFF_FFFF (13 R453). -/
def State.bump (s : State) (m : RealmId) (k : Nat) (n : Nat) : State :=
  s.oput m k ((Nat.min (s.onat m k + n) 0xFFFFFFFF : Nat) : Int)

def Hub.oget (h : Hub) (k : Nat) : Int := tget (objDflt k) h.objs k
def Hub.onat (h : Hub) (k : Nat) : Nat := (h.oget k).toNat
def Hub.oput (h : Hub) (k : Nat) (v : Int) : Hub := { h with objs := tput (objDflt k) h.objs k v }
def State.hget (s : State) (k : Nat) : Int := s.hub.oget k
def State.hput (s : State) (k : Nat) (v : Int) : State := { s with hub := s.hub.oput k v }

/-- Objects with an update interval are refreshed (12 Table 12-8). -/
def telemetry (s : State) (m : RealmId) : Bool := s.onat m o28_SHED_LEVEL == 0

/-! ## Interrupts, events -/

/-- A source of the realm's interrupt controller becomes pending (14 R493, R494). -/
def State.irq (s : State) (m : RealmId) (n : Nat) : State :=
  s.modBus m (fun b => { b with pend := b.pend ||| (BitVec.ofNat 64 (2 ^ n)) })

/-- The timebase at an instant, in whole ns since the epoch: it advances by 20 + RATE_FRAC ÷ 2^32 ns at every cycle of
the 49.152 MHz crystal (11 R383). -/
def tbAt (b : Tb) (now : Time) : Nat :=
  let cycles := now * 49152 / 1000000000 - b.at0 * 49152 / 1000000000
  (b.base + cycles * (20 * 4294967296 + b.rate)) / 4294967296

/-- The timebase of a realm; it stands still without M#_XO (01 R18). -/
def State.tbNs (s : State) (m : RealmId) : Nat :=
  let r := s.realm m
  if r.xo then tbAt r.tb s.now else r.tb.base / 4294967296

/-- A TS value as an integer of its wire form: 48 bits of seconds, then 32 bits of ns (12 Table 12-1). -/
def tsInt (totalNs : Nat) : Int :=
  ((totalNs / 1000000000 % 281474976710656 + (totalNs % 1000000000) * 281474976710656 : Nat) : Int)

/-- The events with the P0 flag (13 Table 13-7). -/
def eventP0 (code : Nat) : Bool :=
  [0x1201, 0x1202, 0x1801, 0x1A03, 0x2004, 0x2202, 0x2203, 0x3001, 0x3003, 0x3004].contains code

/-- The object ID of a realm object (00 R10). -/
def srcId (m : RealmId) (k : Nat) : Nat := m.val * 268435456 + k

/-- An EVENTS subscription queues up to 256 records; a record that finds it full is lost (12 R444). -/
def subTake (e : EventRec) (u : Sub) : Sub :=
  if u.kind = 2 ∧ u.queue.length < 256 then { u with queue := u.queue ++ [e] } else u

def subFull (u : Sub) : Bool := decide (u.kind = 2) && decide (256 ≤ u.queue.length)

/-- The host interrupt source that a P0 event of a realm makes pending (15 Table 15-8). -/
def hirqP0 (m : RealmId) : Nat := 2 + m.val

/-- A source of the host interrupt controller becomes pending (15 R523). -/
def State.hirq (s : State) (n : Nat) : State :=
  { s with hub := { s.hub with ipend := s.hub.ipend ||| (BitVec.ofNat 32 (2 ^ n)) } }

/-- The realm raises an event: it is written into EVENT_LOG as record EVENT_NEXT and queued to every EVENTS
subscription (13 R452, R454; 12 R444). `k` is the key of the source object. -/
def State.raise (s : State) (m : RealmId) (code : Nat) (k : Nat) : State :=
  let r := s.realm m
  let ns := s.tbNs m
  let e : EventRec := ⟨code, eventP0 code, srcId m k, r.frame.number, ns / 1000000000, ns % 1000000000⟩
  let next := r.onat o11_EVENT_NEXT
  let lost := (r.bil.subs.filter subFull).length
  let s := s.modRealm m (fun r =>
    { r with bil := { r.bil with log := tput EventRec.zero r.bil.log (next % 256) e,
                                 subs := r.bil.subs.map (subTake e) } })
  let s := s.oput m o11_EVENT_NEXT (((next + 1) % 4294967296 : Nat) : Int)
  let s := if lost = 0 then s else s.bump m o28_EVENTS_LOST lost
  if eventP0 code then s.hirq (hirqP0 m) else s

/-- Whether an event limited to one in `period` may be raised now (log entry 3). -/
def Realm.gateOpen (r : Realm) (now : Time) (g : Nat) (period : Time) : Bool :=
  let last := tget 0 r.gates g
  decide (last = 0) || decide (last + period ≤ now + 1)

/-- An event limited to one in `period` for each source. -/
def State.raiseOnce (s : State) (m : RealmId) (code : Nat) (k : Nat) (g : Nat) (period : Time) : State :=
  let id := code * 4294967296 + g
  if (s.realm m).gateOpen s.now id period then
    (s.modRealm m (fun r => { r with gates := tput 0 r.gates id (s.now + 1) })).raise m code k
  else s

/-- A bus master of the realm is reset: its transactions that are held or wait are released and never take effect, and
it issues none until the reset is complete (14 R489 to R492). Masters 2 and 12 are the DMA channels of NETA and NETB. -/
def State.resetMaster (s : State) (m : RealmId) (k : Nat) : State :=
  s.modBus m (fun b => { b with resetting := tput 0 b.resetting k (s.now + 1),
                                waiting := b.waiting.filter (fun w => w.master != k) })

/-! ## Stored units (07) -/

/-- The address of a symbol of a vector of a bank (07 Table 7-1 bank IDs). -/
def symAddr (bank vec sym : Nat) : Nat := bank * 16777216 + vec * 32 + sym

/-- Program memories and Keeper ROM hold no residues (07 R249). -/
def bankHasRes (bank : Nat) : Bool := !(decide (0x20 ≤ bank) && decide (bank < 0x40)) && decide (bank ≠ 0x82)

/-- Vectors of a bank (07 Table 7-1). -/
def bankVectors (bank : Nat) : Nat :=
  if bank < 0x40 then 8192
  else if bank < 0x80 then 16384
  else if bank = 0x80 then 32768
  else if bank = 0x81 then 32768
  else if bank = 0x82 then 8192
  else if bank = 0x83 then 65536
  else 0

/-- One byte of a memory, by its stored symbol. -/
def rdSym (c : List Host.Cell) (a : Nat) : Byte := tget 0 c a
def wrSym (c : List Host.Cell) (a : Nat) (b : Byte) : List Host.Cell := tput 0 c a b

def rdSyms (c : List Host.Cell) (a : Nat) : Nat → List Nat
  | 0 => []
  | n + 1 => (rdSym c a).toNat :: rdSyms c (a + 1) n

/-- Write symbols at consecutive addresses. -/
def wrSyms (c : List Host.Cell) (a : Nat) : List Nat → List Host.Cell
  | [] => c
  | x :: r => wrSyms (wrSym c a (BitVec.ofNat 8 x)) (a + 1) r

def nth (l : List Nat) (i : Nat) : Nat := l.getD i 0

/-- A lane from the symbols: four data bytes, least significant first, and the residue (07 R249). -/
def symLane (l : List Nat) (i : Nat) : Lane :=
  ⟨BitVec.ofNat 32 (nth l (4 * i) + nth l (4 * i + 1) * 256 + nth l (4 * i + 2) * 65536
      + nth l (4 * i + 3) * 16777216), BitVec.ofNat 8 (nth l (16 + i))⟩

def symVec (l : List Nat) : Vec := ⟨symLane l 0, symLane l 1, symLane l 2, symLane l 3⟩

def laneBytes (l : Lane) : List Nat :=
  let n := l.data.toNat
  [n % 256, n / 256 % 256, n / 65536 % 256, n / 16777216 % 256]

/-- The 20 data and residue symbols of a vector. -/
def vecSyms (v : Vec) : List Nat :=
  laneBytes v.q0 ++ laneBytes v.q1 ++ laneBytes v.q2 ++ laneBytes v.q3
    ++ [v.q0.res.toNat, v.q1.res.toNat, v.q2.res.toNat, v.q3.res.toNat]

/-- Store a vector with a fresh code (07 R250). -/
def putVec (c : List Host.Cell) (bank vec : Nat) (v : Vec) : List Host.Cell :=
  let d := vecSyms v
  wrSyms c (symAddr bank vec 0) (d ++ rsCheck d)

/-- The vector as the code delivers it, and what the code found (07 Table 7-2). -/
def getVec (c : List Host.Cell) (bank vec : Nat) : Vec × CodeOut :=
  let l := rdSyms c (symAddr bank vec 0) 23
  match rsDecode l with
  | .clean => (symVec l, .clean)
  | .corrected p e => (symVec (l.mapIdx (fun i x => if i = p then x ^^^ e else x)), .corrected p e)
  | .uncorrectable =>
    ((symVec l).map (fun x => ⟨x.data, if bankHasRes bank then poisonRes else x.res⟩), .uncorrectable)

/-- Every vector from `lo` to `hi` − 1 becomes zero data, residue 0 and a valid code (07 R270). -/
def zeroVecs (c : List Host.Cell) (bank lo hi : Nat) : List Host.Cell :=
  tclear c (symAddr bank lo 0) (symAddr bank hi 0)

/-- A deep bank is ON (07 Table 7-3). -/
def Realm.deepPow (r : Realm) (bank : Nat) : DeepPow := tget DeepPow.reset r.memory.deep bank
def Realm.deepOn (r : Realm) (bank : Nat) : Bool := (r.deepPow bank).st == 0
/-- ON or on its way to ON (07 R267). -/
def Realm.deepComing (r : Realm) (bank : Nat) : Bool :=
  match (r.deepPow bank).target with
  | some (0, _) => true
  | _ => false

/-- A corrected error: CE_COUNT, LAST_ERROR, interrupt MEM_CE, and MEM_CE_RATE when the errors of the running interval
reach CE_THRESHOLD, once in an interval (07 R251, R256, R257). The interval is of 3,600 s of the timebase counted from the entry
to BRING-UP. -/
def State.countCE (s : State) (m : RealmId) (bank vec : Nat) : State :=
  let s := s.bump m (o18_CE_COUNT + 16 * bank) 1
  let s := s.oput m (o18_LAST_ERROR + 16 * bank) ((vec * 16 : Nat) : Int)
  let iv := (s.tbNs m - (s.realm m).bringUpTb) / 3600000000000
  let s := if (s.realm m).memory.ceInterval = iv then s
    else s.modMemory m (fun x => { x with ceInterval := iv, ceRate := [], ceRaised := [] })
  let n := tget 0 (s.realm m).memory.ceRate bank + 1
  let s := s.modMemory m (fun x => { x with ceRate := tput 0 x.ceRate bank n })
  let s := s.irq m 22
  if s.onat m o18_CE_THRESHOLD ≤ n ∧ (s.realm m).memory.ceRaised.contains bank = false then
    (s.modMemory m (fun x => { x with ceRaised := bank :: x.ceRaised })).raise m 0x1802 (o18_CE_COUNT + 16 * bank)
  else s

/-- An uncorrectable error: UE_COUNT, LAST_ERROR, interrupt MEM_UE and the P0 event, at most once per bank per second
(07 R252, R253). -/
def State.countUE (s : State) (m : RealmId) (bank vec : Nat) : State :=
  let s := s.bump m (o18_UE_COUNT + 16 * bank) 1
  let s := s.oput m (o18_LAST_ERROR + 16 * bank) ((vec * 16 : Nat) : Int)
  let s := s.irq m 2
  s.raiseOnce m 0x1801 (o18_UE_COUNT + 16 * bank) bank (sec 1)

/-- Read a stored vector with the outcome of Table 7-2; an uncorrectable data vector is written back poisoned
(07 R252). -/
def State.rdVec (s : State) (m : RealmId) (bank vec : Nat) : Vec × State :=
  let (v, o) := getVec (s.mem m) bank vec
  match o with
  | .clean => (v, s)
  | .corrected _ _ => (v, s.countCE m bank vec)
  | .uncorrectable =>
    let s := if bankHasRes bank then s.setMem m (putVec (s.mem m) bank vec v) else s
    (v, s.countUE m bank vec)

def State.wrVec (s : State) (m : RealmId) (bank vec : Nat) (v : Vec) : State :=
  s.setMem m (putVec (s.mem m) bank vec v)

end Sys2Proof.Machine
end

