-- ==== Sys2Proof/Machine/Image.lean ====
section
/-!
DEFINITION. The image container read as tables (03 R102 to R110, R607 to R609; 04 R156): header fields, section table,
and the sections that the hardware consults while an image runs. Every function reads the bytes of the image itself.
-/
namespace Sys2Proof.Machine

/-- An unsigned little-endian field of `n` bytes at an offset; bytes past the end read 0. -/
def leBytes : List Byte → Nat
  | [] => 0
  | b :: r => b.toNat + 256 * leBytes r

def le (l : List Byte) (off n : Nat) : Nat := leBytes ((l.drop off).take n)

/-- A big-endian field. -/
def beBytes (l : List Byte) : Nat := leBytes l.reverse
def be (l : List Byte) (off n : Nat) : Nat := beBytes ((l.drop off).take n)

/-- The `n` bytes of a number, least significant first. -/
def toLe : Nat → Nat → List Byte
  | 0, _ => []
  | n + 1, v => BitVec.ofNat 8 v :: toLe n (v / 256)

def toBe (n v : Nat) : List Byte := (toLe n v).reverse

def slice (l : List Byte) (off n : Nat) : List Byte := (l.drop off).take n

/-- Records of `n` bytes: the offsets 0, n, 2n, … below the length, whole records only. -/
def recordOffs (len n : Nat) : List Nat := (List.range (len / n)).map (· * n)

/-! ## Header (Table 3-4) -/

def imgFormat (i : List Byte) : Nat := le i 0x04 2
def imgLength (i : List Byte) : Nat := le i 0x10 4
def imgCount (i : List Byte) : Nat := le i 0x14 2
def imgRate (i : List Byte) : Nat := le i 0x18 4
def imgEpoch (i : List Byte) : Nat := le i 0x1C 2
def imgBarriers (i : List Byte) : Nat := le i 0x1E 2
def imgPlacement (i : List Byte) : List Byte := slice i 0x20 32
def imgCritical (i : List Byte) : Nat := le i 0x40 4
def imgCriticalSwap (i : List Byte) : Nat := le i 0x44 4
def imgId (i : List Byte) : Nat := le i 0x48 16

/-! ## Sections (R103) -/

structure Sec where
  type : Nat
  tile : Nat
  flags : Nat
  off  : Nat
  len  : Nat
  crc  : Nat
  deriving DecidableEq, Repr

def secAt (i : List Byte) (n : Nat) : Sec :=
  let o := 0x80 + 16 * n
  ⟨le i o 2, le i (o + 2) 1, le i (o + 3) 1, le i (o + 4) 4, le i (o + 8) 4, le i (o + 12) 4⟩

def secTable (i : List Byte) : List Sec := (List.range (imgCount i)).map (secAt i)

def findSec (i : List Byte) (type tile : Nat) : Option Sec :=
  (secTable i).find? (fun s => s.type == type && s.tile == tile)

/-- The contents of a section; empty where the image has none. -/
def secBytes (i : List Byte) (type tile : Nat) : List Byte :=
  match findSec i type tile with
  | some s => slice i s.off s.len
  | none => []

def hasSec (i : List Byte) (type tile : Nat) : Bool := (findSec i type tile).isSome

def secStart (i : List Byte) (type tile : Nat) : Nat :=
  match findSec i type tile with
  | some s => s.off
  | none => 0

/-! ## Tables used while an image runs -/

/-- An exchange map entry (Table 3-7). -/
structure XEnt where
  vector  : Nat
  cls     : Nat
  writer  : Nat
  readers : Nat
  barrier : Nat
  kind    : Nat
  chan    : Nat
  deriving DecidableEq, Repr

def xEnt (b : List Byte) (o : Nat) : XEnt :=
  let ep := le b (o + 8) 2
  ⟨le b o 2, le b (o + 2) 1, le b (o + 3) 1, le b (o + 4) 2, le b (o + 6) 1, ep / 4096, ep % 4096⟩

def exchMap (i : List Byte) : List XEnt :=
  let b := secBytes i 0x0006 0xFF
  (recordOffs b.length 12).map (xEnt b)

/-- A deep slot (04 Table 4-6). -/
structure DeepSlot where
  bank  : Nat
  tile  : Nat
  cls   : Nat
  write : Nat
  start : Nat
  len   : Nat
  rsvd  : Nat
  deriving DecidableEq, Repr

def deepSlot (b : List Byte) (o : Nat) : DeepSlot :=
  ⟨le b o 1, le b (o + 1) 1, le b (o + 2) 1, le b (o + 3) 1, le b (o + 4) 4, le b (o + 8) 4, le b (o + 12) 4⟩

def deepSlots (i : List Byte) : List DeepSlot :=
  let b := secBytes i 0x0007 0xFF
  (recordOffs b.length 16).map (deepSlot b)

/-- A slack-table entry (Table 3-8). -/
structure SlackEnt where
  taskId  : Nat
  kind    : Nat
  tflags  : Nat
  entry   : Nat
  save    : Nat
  saveLen : Nat
  restore : Nat
  restoreLen : Nat
  period  : Nat
  phase   : Nat
  predEpoch : Nat
  jobSteps : Nat
  result  : Nat
  rsvd    : Nat
  deriving DecidableEq, Repr

def slackEnt (b : List Byte) (o : Nat) : SlackEnt :=
  ⟨le b o 2, le b (o + 2) 1, le b (o + 3) 1, le b (o + 4) 2, le b (o + 6) 2, le b (o + 8) 2, le b (o + 10) 2,
   le b (o + 12) 2, le b (o + 14) 2, le b (o + 16) 2, le b (o + 18) 2, le b (o + 20) 4, le b (o + 24) 4,
   le b (o + 28) 4⟩

def slackTable (i : List Byte) (tile : Nat) : List SlackEnt :=
  let b := secBytes i 0x0009 tile
  (recordOffs b.length 32).map (slackEnt b)

/-- TILE_TIMING (Table 3-6). -/
structure Timing where
  fgLen   : Nat
  swapEntry : Nat
  swapLen : Nat
  barCount : Nat
  aNormal : Nat
  aSwap   : Nat
  segNormal : List Nat
  segSwap : List Nat
  deriving DecidableEq, Repr

/-- A tile without a TILE_PROGRAM runs one `HALT`, A_t = 1 (R106). -/
def Timing.none : Timing := ⟨1, 0, 1, 0, 1, 1, [1, 0, 0, 0, 0, 0, 0, 0, 0], [1, 0, 0, 0, 0, 0, 0, 0, 0]⟩

def timing (i : List Byte) (tile : Nat) : Timing :=
  if hasSec i 0x0004 tile then
    let b := secBytes i 0x0004 tile
    ⟨le b 0 4, le b 4 4, le b 8 4, le b 12 4, le b 0x10 4, le b 0x14 4,
     (List.range 9).map (fun j => le b (0x18 + 4 * j) 4), (List.range 9).map (fun j => le b (0x3C + 4 * j) 4)⟩
  else Timing.none

/-- Participant mask of a barrier (R80). -/
def barMask (i : List Byte) (b : Nat) : Nat := le (secBytes i 0x0005 0xFF) (2 * b) 2

def maskHas (mask k : Nat) : Bool := mask / 2 ^ k % 2 == 1

/-- A FOOTPRINT entry (R609). -/
structure Foot where
  cls   : Nat
  tile  : Nat
  zero1 : Nat
  start : Nat
  len   : Nat
  zero2 : Nat
  deriving DecidableEq, Repr

def foot (b : List Byte) (o : Nat) : Foot :=
  ⟨le b o 1, le b (o + 1) 1, le b (o + 2) 2, le b (o + 4) 4, le b (o + 8) 4, le b (o + 12) 4⟩

def footprint (i : List Byte) : List Foot :=
  let b := secBytes i 0x000D 0xFF
  (recordOffs b.length 16).map (foot b)

/-- The range of vectors that a byte range of a memory class covers (R609): the bank and vectors of deep memory are
those of 07 R246, so a deep range may cover several banks. -/
def classRanges (cls tile start len : Nat) : List VRange :=
  if len = 0 then []
  else if cls = 0 then [⟨tile, start / 16, (start + len + 15) / 16⟩]
  else if cls = 1 then [⟨0x10 + tile, start / 16, (start + len + 15) / 16⟩]
  else if cls = 3 then [⟨0x80, start / 16, (start + len + 15) / 16⟩]
  else
    (List.range 64).filterMap (fun b =>
      let lo := b * 262144
      let a := if start ≤ lo then lo else start
      let e := if start + len ≤ lo + 262144 then start + len else lo + 262144
      if a < e then some ⟨0x40 + b, (a - lo) / 16, (e - lo + 15) / 16⟩ else none)

def footRanges (i : List Byte) : List VRange :=
  (footprint i).flatMap (fun f => classRanges f.cls f.tile f.start f.len)

/-- Init records of a section: the offset in the section of each head, ADDRESS, LENGTH (R108); stops at the first head
that does not fit. -/
def initRecords (b : List Byte) : Nat → Nat → List (Nat × Nat × Nat)
  | 0, _ => []
  | n + 1, o =>
    if o + 16 ≤ b.length then (o, le b o 4, le b (o + 4) 4) :: initRecords b n (o + 16 + le b (o + 4) 4) else []

/-- The deep banks that an image names in DEEP_SLOTS, FOOTPRINT or DEEP_INIT (07 R267, R268). -/
def imageBanks (i : List Byte) : List Nat :=
  (deepSlots i).map (·.bank)
    ++ ((footprint i).flatMap (fun f => if f.cls = 2 then (classRanges 2 f.tile f.start f.len).map (·.bank - 0x40) else []))
    ++ (let b := secBytes i 0x0008 0xFF
        (initRecords b (b.length / 16) 0).flatMap
          (fun r => (classRanges 2 0 (r.2.1) (r.2.2)).map (·.bank - 0x40)))

/-! ## The image of a bank -/

def bankImg (f : FrameSt) (b : Fin 2) : List Byte := if b = 0 then f.imgA else f.imgB
def activeImg (f : FrameSt) : List Byte := bankImg f f.active
def otherBank (b : Fin 2) : Fin 2 := if b = 0 then 1 else 0
def bankSt (f : FrameSt) (b : Fin 2) : Nat := if b = 0 then f.stA else f.stB
def setBankSt (f : FrameSt) (b : Fin 2) (v : Nat) : FrameSt := if b = 0 then { f with stA := v } else { f with stB := v }
def setBankImg (f : FrameSt) (b : Fin 2) (i : List Byte) : FrameSt :=
  if b = 0 then { f with imgA := i } else { f with imgB := i }
/-- The running image; empty while none runs. -/
def runImg (f : FrameSt) : List Byte := if f.running then activeImg f else []

end Sys2Proof.Machine
end

