-- ==== Sys2Proof/Machine/Func.lean ====
section
/-!
DEFINITION. The functions that the spec defines by exact real values and a rounding: LOG2, EXP2 and RCP (05 R171 to
R174), gain and pan codes (06 R208, R209), crossfade constants (06 R221) and the second-order high- and low-pass words
(06 Table 6-4), computed with fixed-point numbers of 128 fraction bits.
MARKED CHOICES of this file (DESIGN CHOICE, DEDUCED or PRESUMED): log entries 7 and 12.
-/
namespace Sys2Proof.Machine

/-- Bits of log2 of a mantissa x in [1, 2), scaled by 2^128: square, take a bit, halve when 2 or above. -/
def log2Bits : Nat → Nat → Nat → Nat
  | 0, _, acc => acc
  | n + 1, x, acc =>
    let y := x * x / 2 ^ 128
    if 2 ^ 129 ≤ y then log2Bits n (y / 2) (2 * acc + 1) else log2Bits n y (2 * acc)

/-- floor(log2 a) for a of at most 32 bits. -/
def msb : Nat → Nat → Nat
  | 0, _ => 0
  | n + 1, a => if 2 ^ (n + 1) ≤ a then n + 1 else msb n a

/-- LOG2 of a Q1.31 word in Q8.24 (05 R171): the integer nearest to 2^24 × log2(a × 2^−31). -/
def log2Word (a : Int) : Int :=
  if a ≤ 0 then -2147483648
  else
    let n := a.toNat
    let e := msb 31 n
    let bits := log2Bits 25 (n * 2 ^ 128 / 2 ^ e) 0
    ((e : Int) - 31) * 16777216 + ((bits + 1) / 2 : Nat)

/-- 2^(2^−i) × 2^128 rounded down, i from 1 to 24: each the square root of the one before. -/
def exp2Roots : List Nat :=
  [481231938336009023090067544955250113854,
   404666211852346594250993303657235475948,
   371080552416919877990254144423618836767,
   355347954397881497469693820312941593443,
   347733580493780928808815525413232318461,
   343987798952690256687074238090730651112,
   342130066523749645191881555545647086143,
   341204966012395051463589306197117539651,
   340743354212339922144397487283364652955,
   340512782555889898808859563671008026639,
   340397555242326998647385072673097901535,
   340339956208435708755752659506489956133,
   340311160346490911934870813363085081661,
   340296763329178528376528243588334151603,
   340289565048926066557319684044576333862,
   340285965965899358974465315064323671036,
   340284166438660709872813645066166128555,
   340283266678610039476911010529773336521,
   340282816799476865065514053322893021549,
   340282591860133317712432962519222523747,
   340282479390517303956044167089727739432,
   340282423155723237052512385577070742059,
   340282395038329688593740233918090740389,
   340282380979633785612518603506803612670]

/-- 2^f × 2^128 for a fraction f of 24 bits, from its highest bit. -/
def exp2Frac : List Nat → Nat → Nat → Nat → Nat
  | [], _, _, acc => acc
  | c :: r, f, w, acc => exp2Frac r (f % w) (w / 2) (if w ≤ f then acc * c / 2 ^ 128 else acc)

/-- EXP2 of a Q8.24 word in Q1.31 (05 R172): the integer nearest to 2^31 × 2^y, at most 2^31 − 1. At y = −32 the exact
value is 0.5, halfway between 0 and 1, although 05 R174 knows no such value: which of the two it is stays open
(log entry 12). -/
def exp2Word (a : Int) : Int :=
  if 0 ≤ a then 2147483647
  else if a = -536870912 then (if Config.exp2TieUp then 1 else 0)
  else
    let whole := (-(a / 16777216)).toNat
    let m := exp2Frac exp2Roots (a % 16777216).toNat 8388608 (2 ^ 128)
    let v := (m + 2 ^ (96 + whole)) / 2 ^ (97 + whole)
    if 2147483647 < v then 2147483647 else (v : Int)

/-- RCP of a positive word (05 R173): the integer nearest to 2^54 ÷ a, at most 2^31 − 1. -/
def rcpPos (a : Nat) : Nat := Nat.min ((2 ^ 55 + a) / (2 * a)) 2147483647

def rcpWord (a : Int) : Int :=
  if a = 0 then 2147483647
  else if 0 < a then (rcpPos a.toNat : Int)
  else -(rcpPos (-a).toNat : Int)

/-! ## Gain and pan codes (06 R208, R209) -/

/-- log2(10) × 2^96, rounded. -/
def log2Ten : Int := 263190258962436467100402834429

/-- The gain code L(g) of a value in 0.01 dB: the integer nearest to 2^24 × (g × log2(10) ÷ 2,000 − 4). -/
def gainCode (g : Int) : Int := (2 * (g * log2Ten * 16777216) + 2000 * 2 ^ 96) / (2 * 2000 * 2 ^ 96) - 67108864

def offCode : Int := -2147483648
def floorCode : Int := gainCode (-14400)

/-- π × 2^128, rounded. -/
def piFix : Int := 1069028584064966747859680373161870783301

/-- A power series Σ ± x^n ÷ n! over every second n, with the terms computed from the one before. -/
def series (x2 : Int) : Nat → Int → Int → Int
  | 0, _, _ => 0
  | f + 1, n, term => term + series x2 f (n + 2) (-(term * x2 / 2 ^ 128) / ((n + 1) * (n + 2)))

/-- cos and sin of x × 2^−128, times 2^128, for x from 0 to π. -/
def cosFix (x : Int) : Int := series (x * x / 2 ^ 128) 28 0 (2 ^ 128)
def sinFix (x : Int) : Int := series (x * x / 2 ^ 128) 28 1 x

/-- The integer nearest to 2^24 × log2(v × 2^−128). -/
def log2Code (v : Nat) : Int :=
  let e := msb 129 v
  ((e : Int) - 128) * 16777216 + ((log2Bits 25 (v * 2 ^ 128 / 2 ^ e) 0 + 1) / 2 : Nat)

/-- The pan factor of a side: cos θ for the left (0), sin θ for the right, θ = π × (p + 10,000) ÷ 40,000. -/
def panFactor (side : Nat) (p : Int) : Int :=
  let x := piFix * (p + 10000) / 40000
  if side = 0 then (if p = 10000 then 0 else cosFix x) else (if p = -10000 then 0 else sinFix x)

/-- A code with its pan factor; a factor of 0 gives the off code (06 R209). -/
def panCode (code : Int) (side : Nat) (p : Int) : Int :=
  let v := panFactor side p
  if v ≤ 0 then offCode else code + log2Code v.toNat

/-! ## Rounding, crossfade constants -/

/-- n ÷ d to the nearest integer, ties to even. -/
def rne (n : Int) (d : Nat) : Int :=
  let q := n / d
  let r := 2 * (n - q * d)
  if r < d then q else if (d : Int) < r then q + 1 else if q % 2 = 0 then q else q + 1

def maxQ31 : Int := 2147483647

/-- cd, sd and κ of a crossfade of N samples (06 R221); shapes 0 raised cosine, 1 linear, 2 equal power. -/
def xfConsts (shape n : Nat) : Int × Int × Int :=
  if n = 0 then (0, 0, 0)
  else if shape = 1 then (0, 0, rne maxQ31 n)
  else
    let x := if shape = 0 then piFix / n else piFix / (2 * n)
    let lim := fun v : Int => let w := rne (v * 2147483648) (2 ^ 128); if maxQ31 < w then maxQ31 else w
    (lim (cosFix x), lim (sinFix x), 0)

/-- ρ: 31 bits dropped with convergent rounding and saturation (06 Table 6-7). -/
def rho (v : Int) : Int := limit32 (rne v 2147483648)

/-- c and s of the sample after (06 Table 6-7). -/
def xfRotate (cd sd : Int) (cs : Int × Int) : Int × Int :=
  (rho (cs.1 * cd - cs.2 * sd), rho (cs.2 * cd + cs.1 * sd))

/-- c and s at sample n. -/
def xfState (cd sd : Int) : Nat → Int × Int → Int × Int
  | 0, cs => cs
  | n + 1, cs => xfState cd sd n (xfRotate cd sd cs)

/-- w_new of sample n (06 Table 6-7). -/
def xfWeight (shape len n : Nat) : Int :=
  let (cd, sd, kappa) := xfConsts shape len
  let cs := xfState cd sd n (maxQ31, 0)
  if shape = 1 then (if maxQ31 < n * kappa then maxQ31 else n * kappa)
  else if shape = 0 then rne (maxQ31 - cs.1) 2
  else cs.2

/-! ## Second-order high- and low-pass (06 Table 6-4) -/

/-- tan(π f ÷ f_s) × 2^128 for f in mHz, taken as 0.49 f_s at and above that. -/
def prewarp (f rate : Nat) : Int :=
  let g := if 490 * rate ≤ f then 490 * rate else f
  let x := piFix * g / (1000 * rate)
  sinFix x * 2 ^ 128 / cosFix x

/-- b1, b2, a1, a2, b0 in Q2.30 of the bilinear transform (s = (1 − z⁻¹) ÷ (K (1 + z⁻¹)), K the prewarped frequency) of
(n2 s² + n1 s + n0) ÷ (d2 s² + d1 s + d0); the coefficients come multiplied by 1, K and K². -/
def bilinear (n d : Int × Int × Int) : List Int :=
  let den := (d.1 + d.2.1 + d.2.2).toNat
  let q := fun v : Int => rne (v * 2 ^ 30) den
  [q (2 * (n.2.2 - n.1)), q (n.1 - n.2.1 + n.2.2), q (2 * (d.2.2 - d.1)), q (d.1 - d.2.1 + d.2.2), q (n.1 + n.2.1 + n.2.2)]

/-- The prototype s² ÷ (s² + s ÷ Q + 1), or 1 ÷ (…), with Q = 0.7071. -/
def biquad2 (high : Bool) (f rate : Nat) : List Int :=
  let k := prewarp f rate
  let k2 := k * k / 2 ^ 128
  bilinear (if high then (2 ^ 128, 0, 0) else (0, 0, k2)) (2 ^ 128, k * 10000 / 7071, k2)

/-- A peaking or shelving design: the bilinear transform of a prototype that the spec does not give (log entry 7), with its
frequency prewarped and limited to 0.49 of the rate. -/
def biquadProto (code f : Nat) (gain q : Int) (rate : Nat) : List Int :=
  let k := prewarp f rate
  let scale := fun c : Int × Int × Int => (c.1, c.2.1 * k / 2 ^ 128, c.2.2 * (k * k / 2 ^ 128) / 2 ^ 128)
  let p := Config.prototype code gain q
  bilinear (scale p.1) (scale p.2)

end Sys2Proof.Machine
end

