-- ==== Sys2Proof/Machine/Ramp.lean ====
section
/-!
DEFINITION. The PARAM_MAP section (06 R206) and what the foreground code of an image does with staged records at the
start of a frame: adoption (06 R205), ramp slots (06 R211), selectors (06 R222), STAGED and EXPONENT records (06 R612);
and the Keeper's words for a record in a tile's Y memory.
MARKED CHOICES of this file (DESIGN CHOICE, DEDUCED or PRESUMED): log entries 7, 20 and 22.
-/
namespace Sys2Proof.Machine

/-! ## PARAM_MAP -/

structure Bind where
  idx    : Nat
  key    : Nat
  kind   : Nat
  tile   : Nat
  lane   : Nat
  format : Nat
  addr   : Nat
  arg    : Nat
  vecs   : Nat
  rsvd   : Nat
  deriving DecidableEq, Repr

structure PMap where
  count   : Nat
  word    : Nat
  slots   : Nat
  sels    : Nat
  base    : Nat
  scratch : Nat
  link    : Nat
  binds   : List Bind
  deriving DecidableEq, Repr

def bindAt (b : List Byte) (i : Nat) : Bind :=
  let o := 64 + 16 * i
  ⟨i, le b o 4, le b (o + 4) 1, le b (o + 5) 1, le b (o + 6) 1, le b (o + 7) 1, le b (o + 8) 4, le b (o + 12) 1,
   le b (o + 13) 1, le b (o + 14) 2⟩

/-- The PARAM_MAP of an image; empty where it has none. -/
def paramMap (i : List Byte) : PMap :=
  let b := secBytes i 0x000B 0xFF
  ⟨le b 0 4, le b 4 4, le b 8 2, le b 10 2, le b 12 4, le b 16 4, le b 20 16,
   (List.range ((b.length - 64) / 16)).map (bindAt b)⟩

def hasMap (i : List Byte) : Bool := hasSec i 0x000B 0xFF

/-- Buses u and u + 1 are linked (06 R613), for either of them. -/
def linked (pm : PMap) (u : Nat) : Bool := pm.link / 2 ^ (u - u % 2) % 2 == 1

def laneIn (b : Bind) (i : Nat) : Bool := b.lane == i || b.lane == 0xFF

def quadOf {α : Type} (f : Nat → α) : Quad α := ⟨f 0, f 1, f 2, f 3⟩

/-! ## Words of a tile's memory -/

/-- A vector of words with generated residues, stored in Y memory. -/
def putY (s : State) (m : RealmId) (k vec : Nat) (w : Quad Int) : State :=
  s.wrVec m (0x10 + k) (vec % 8192) (w.map (fun v => mkLane (BitVec.ofInt 32 v)))

/-- A vector of Y memory as the Keeper reads it over the bus: a lane that fails its check reads 0 and is counted (07 R254;
08 Table 8-4). -/
def keeperVec (s : State) (m : RealmId) (k vec : Nat) : Quad (BitVec 32) × State :=
  let (v, s) := s.rdVec m (0x10 + k) (vec % 8192)
  let fails := (v.toList.filter (fun l => !laneOk l)).length
  (v.map (fun l => if laneOk l then l.data else 0), if fails = 0 then s else s.bump m o1A_EGRESS_POISON fails)

/-- A start frame has been reached and not been adopted (06 R205). -/
def adopts (start adopted f : Nat) : Bool :=
  start != adopted && decide ((f + 4294967296 - start) % 4294967296 < 2147483648)

/-! ## The image's code at the start of a frame -/

/-- A vector of Y memory as a tile's code reads it; lanes that fail their check are tally faults of the tile (08 R278, R282). -/
def codeVec (s : State) (m : RealmId) (k vec : Nat) : Vec × State :=
  let (v, s) := s.rdVec m (0x10 + k) (vec % 8192)
  let n := (v.toList.filter laneTally).length
  (v, if n = 0 then s else s.bump m (o1A_TALLY_TILE + 16 * k) n)

/-- A result of the lanes `src`: poisoned where one of them fails (08 R278, R282). -/
def codeLane (src : List Lane) (w : Int) : Lane :=
  if src.all laneOk then mkLane (BitVec.ofInt 32 w) else poisonLane (BitVec.ofInt 32 w)

def laneInt (l : Lane) : Int := l.data.toInt
def laneNat (l : Lane) : Nat := l.data.toNat

/-- A record is adopted in frame `f`; DESIGN CHOICE (log entry 22): not while one of the lanes compared fails its check, as
`CMP` answers 0 for a failing lane (05 R177). -/
def codeAdopts (start last : Lane) (f : Nat) : Bool :=
  laneOk start && laneOk last && adopts (laneNat start) (laneNat last) f

/-- A comparison k < n of the image's code, 0 where a lane fails. -/
def codeBelow (a b : Lane) (x y : Nat) : Bool := laneOk a && laneOk b && decide (x < y)

/-- One ramp slot in one frame (06 R211). A word is poisoned where a lane that it is computed from fails its check; DESIGN
CHOICE (log entry 22): with a DEST lane that fails nothing is stored to a coefficient. -/
def rampSlot (s : State) (m : RealmId) (k base f : Nat) : State :=
  let (v0, s) := codeVec s m k base
  let (v9, s) := codeVec s m k (base + 9)
  let take := codeAdopts v0.q0 v9.q1 f
  let o := if take then base + 1 else base + 5
  let (l, s) := codeVec s m k o
  let (d, s) := codeVec s m k (o + 1)
  let (rm, s) := codeVec s m k (o + 2)
  let (fin, s) := codeVec s m k (o + 3)
  let kl := if take then mkLane 0 else v9.q0
  let k0 := laneNat kl
  let nl := if take then v0.q1 else v9.q3
  let ml := if take then v0.q3 else v9.q3
  let n := if take then laneNat v0.q1 else laneNat v9.q3 % 1048576
  let mode := if take then laneNat v0.q3 % 16 else laneNat v9.q3 / 16777216 % 16
  let dest := if take then v0.q2 else v9.q2
  let runs := codeBelow kl nl k0 n
  let l' := l.imap (fun i x =>
    if runs then codeLane [x, d.get i, rm.get i]
      (BitVec.ofInt 32 (laneInt x + laneInt (d.get i) + (if k0 < laneNat (rm.get i) then 1 else 0))).toInt
    else fin.get i)
  let word := l'.imap (fun i x => if maskHas mode i.val then x else codeLane [x, ml] (exp2Word (laneInt x)))
  let y := fun (s : State) (j : Nat) (v : Vec) => s.wrVec m (0x10 + k) ((base + j) % 8192) v
  let s := y (y (y (y s 5 l') 6 d) 7 rm) 8 fin
  let s := y s 9 ⟨codeLane [kl] ((if runs then k0 + 1 else k0 : Nat) : Int), (if take then v0.q0 else v9.q1), dest,
    codeLane [nl, ml] ((n + mode * 16777216 : Nat) : Int)⟩
  if laneOk dest then s.wrVec m (0x10 + k) (laneNat dest / 16 % 8192) word else s

/-- A selector record in one frame (06 R222): adoption, then the sample count and the recurrence. A reversal starts from the
weights of the fade it turns back: c and s, or for the linear shape the sample count (R224). -/
def selectRecord (s : State) (m : RealmId) (k base f : Nat) (start : Option (Int × Int)) : State :=
  let (v0, s) := codeVec s m k base
  let (v3, s) := codeVec s m k (base + 3)
  let take := codeAdopts v0.q0 v3.q3 f
  let (old, s) := codeVec s m k (base + (if take then 5 else 4))
  let (cur, s) := codeVec s m k (base + (if take then 1 else 5))
  let (act, s) := codeVec s m k (base + (if take then 2 else 6))
  let shape := if take then laneNat v0.q2 else laneNat act.q3 / 65536 % 4
  let c0 := start.getD (maxQ31, 0)
  let first := if shape = 1 then (maxQ31, 0) else c0
  let c := if take then mkLane (BitVec.ofInt 32 first.1) else v3.q0
  let sn := if take then mkLane (BitVec.ofInt 32 first.2) else v3.q1
  let past := if shape = 1 ∧ start.isSome then c0.1.toNat else 0
  let nl := if take then mkLane (BitVec.ofNat 32 past) else v3.q2
  let n0 := laneNat nl
  let ll := if take then v0.q1 else act.q3
  let sl := if take then v0.q2 else act.q3
  let len := if take then laneNat v0.q1 + past else laneNat act.q3 % 8192
  let runs := codeBelow nl ll n0 len
  let cs := xfRotate (laneInt act.q0) (laneInt act.q1) (laneInt c, laneInt sn)
  let turn := runs && shape != 1
  let y := fun (s : State) (j : Nat) (v : Vec) => s.wrVec m (0x10 + k) ((base + j) % 8192) v
  let s := y s 3 ⟨(if turn then codeLane [act.q0, act.q1, c, sn] cs.1 else c), (if turn then codeLane [act.q0, act.q1, c, sn] cs.2 else sn),
    (if runs then codeLane [nl] ((n0 + 1 : Nat) : Int) else nl), (if take then v0.q0 else v3.q3)⟩
  let s := y (y s 4 old) 5 cur
  y s 6 ⟨act.q0, act.q1, act.q2, codeLane [ll, sl] ((len + shape * 65536 : Nat) : Int)⟩

/-- Adoption of a STAGED or EXPONENT record: the image keeps the start frame in lane 0 of the vector after its data
(06 R612). -/
def plainRecord (s : State) (m : RealmId) (k base vecs f : Nat) : State :=
  let (v0, s) := codeVec s m k base
  let (last, s) := codeVec s m k (base + vecs + 1)
  if codeAdopts v0.q0 last.q0 f then s.wrVec m (0x10 + k) ((base + vecs + 1) % 8192) { last with q0 := v0.q0 } else s

/-- The records of tile k, one binding for each address. -/
def recordBinds (pm : PMap) (k : Nat) : List Bind :=
  pm.binds.foldl (fun l b =>
    if b.tile = k ∧ (b.kind = 0 ∨ b.kind = 2 ∨ b.kind = 3) ∧ l.all (fun x => x.addr != b.addr) then l ++ [b] else l) []

/-- What the foreground code of tile `k` does with the staged records in frame `n`. A tile that runs no program of the
image has no such code. -/
def imageRecords (s : State) (m : RealmId) (k n : Nat) : State :=
  let img := activeImg (s.frame m)
  let pm := paramMap img
  let f := n % 4294967296
  if hasMap img && hasSec img 0x0004 k then
    let s := (recordBinds pm k).foldl (fun s b =>
      if b.kind = 2 then
        let h := tget SelHeld.none (s.tile m k).sels b.addr
        let r := h.pend.getD h.cur
        selectRecord s m k (b.addr / 16) f (if r.back then some (r.c0, r.s0) else none)
      else plainRecord s m k (b.addr / 16) (if b.kind = 3 then 1 else b.vecs) f) s
    forN pm.slots (fun j s => rampSlot s m k ((pm.base + 160 * j) / 16) f) s
  else s

end Sys2Proof.Machine
end

