-- ==== Sys2Proof/Machine/LoaderCheck.lean ====
section
/-!
DEFINITION. The checks of the frame loader (03 R102 to R112, R607 to R613; 04 R141, R147, R152, R156, R157; 05 R199;
06 R206, R212, R233, R234, R239). A check answers the error code of 03 Table 3-12 and the offset of R611, or `none`.
MARKED CHOICES of this file (DESIGN CHOICE, DEDUCED or PRESUMED): log entry 24.
-/
namespace Sys2Proof.Machine

abbrev Bad := Option (Nat × Nat)

/-- The error where a condition fails. -/
def must (ok : Bool) (code off : Nat) : Bad := if ok then none else some (code, off)

/-- The first error of a list of checks. -/
def firstBad (l : List Bad) : Bad := l.findSome? id

def within16 (v : Nat) : Bool := v % 16 == 0

/-- The first byte that is not zero. -/
def nonZero (i : List Byte) (off n : Nat) : Option Nat :=
  ((List.range n).find? (fun j => le i (off + j) 1 != 0)).map (· + off)

def zeros (i : List Byte) (off n base : Nat) : Bad := (nonZero i off n).map (fun o => (6, base + o))

/-! ## Header (Table 3-4) -/

def magicBytes : List Nat := [0x45, 0x5A, 0x49, 0x4D]

def headerCheck (i : List Byte) : Bad :=
  let fmt := imgFormat i
  let len := imgLength i
  firstBad
    [((List.range 4).find? (fun j => le i j 1 != magicBytes.getD j 0)).map (fun j => (1, j)),
     must (!(decide (0x0100 ≤ fmt) && decide (fmt ≤ 0x02FF))) 2 4,
     must (fmt == 0x0300) 3 4,
     must (le i 6 2 == 128) 3 6,
     must (le i 8 4 == 0x00000780) 2 8,
     must (decide (le i 12 4 ≤ 0x000000B1)) 25 12,
     must (decide (len ≤ 33554432)) 4 16,
     must (len % 16 == 0 && decide (256 ≤ len)) 3 16,
     must (decide (1 ≤ imgCount i) && decide (imgCount i ≤ 128)) 3 0x14,
     must (le i 0x16 2 == 0) 3 0x16,
     must ([44100, 48000, 88200, 96000, 176400, 192000].contains (imgRate i)) 3 0x18,
     must (imgEpoch i != 0) 3 0x1C,
     must (decide (imgBarriers i ≤ 8)) 3 0x1E,
     (nonZero i 0x58 40).map (fun o => (3, o))]

/-! ## Section table (R607) -/

def knownType (t : Nat) : Bool := decide (1 ≤ t) && decide (t ≤ 15)
def tileType (t : Nat) : Bool := [1, 2, 3, 4, 9].contains t
def maxLen (t : Nat) : Nat :=
  [0, 131072, 147456, 147456, 96, 16, 393216, 262144, 16842752, 256, 1048576, 4194304, 1048576, 65536, 64, 262144].getD t 0

def tableEnd (i : List Byte) : Nat := 0x80 + 16 * imgCount i

def overlaps (a b : Sec) : Bool := decide (a.off < b.off + b.len) && decide (b.off < a.off + a.len)

def entryCheck (i : List Byte) (before : List Sec) (s : Sec) (o : Nat) : Bad :=
  firstBad
    [must (decide (s.flags < 2)) 6 (o + 3),
     must (knownType s.type || s.flags == 1) 9 o,
     must (!knownType s.type || (if tileType s.type then decide (s.tile < 16) else s.tile == 0xFF)) 6 (o + 2),
     must (!knownType s.type || decide (s.len ≤ maxLen s.type)) 7 (o + 8),
     must (within16 s.off && decide (tableEnd i ≤ s.off)) 5 (o + 4),
     must (decide (s.off + s.len + 64 ≤ imgLength i) && before.all (fun b => !overlaps s b)) 5 o,
     must (!knownType s.type || before.all (fun b => b.type != s.type || b.tile != s.tile)) 8 o]

def tableCheck (i : List Byte) : Bad :=
  let t := secTable i
  (List.range t.length).findSome? (fun n =>
    match t[n]? with
    | some s => entryCheck i (t.take n) s (0x80 + 16 * n)
    | none => none)

/-! ## Contents of one section (R115, R608); `b` is the section, `o` its offset in the stream -/

/-- The records of an init section in an address space of `size` bytes (R108). -/
def initCheck (b : List Byte) (o size : Nat) : Nat → Nat → Bad
  | 0, _ => none
  | n + 1, p =>
    if b.length ≤ p then none
    else if b.length < p + 16 then some (5, o + p)
    else
      let a := le b p 4
      let len := le b (p + 4) 4
      match firstBad
        [must (within16 a) 6 (o + p), must (within16 len) 6 (o + p + 4), zeros b (p + 8) 8 o,
         must (decide (a + len ≤ size)) 5 (o + p), must (decide (p + 16 + len ≤ b.length)) 5 (o + p)] with
      | some e => some e
      | none => initCheck b o size n (p + 16 + len)

def timingCheck (b : List Byte) (o : Nat) : Bad :=
  let n := le b 12 4
  firstBad
    [must (decide (n ≤ 8)) 6 (o + 12),
     ((List.range 9).find? (fun j => decide (n < j) && le b (0x18 + 4 * j) 4 != 0)).map (fun j => (6, o + 0x18 + 4 * j)),
     ((List.range 9).find? (fun j => decide (n < j) && le b (0x3C + 4 * j) 4 != 0)).map (fun j => (6, o + 0x3C + 4 * j))]

/-- The physical vectors of an exchange entry (R606). -/
def physOf (x : XEnt) : List Nat := if x.cls = 2 ∨ x.cls = 5 then [x.vector, x.vector + 1] else [x.vector]

/-- Each error is reported at the field or byte of the entry that causes it (R611). -/
def exchEntryCheck (before : List XEnt) (b : List Byte) (x : XEnt) (p o : Nat) : Bad :=
  firstBad
    [must (decide (x.vector < 32768)) 6 (o + p),
     must (decide (x.cls ≤ 5)) 17 (o + p + 2),
     must (before.all (fun y => (physOf x).all (fun v => !(physOf y).contains v))) 17 (o + p),
     must (!(x.vector == 32767 && (x.cls == 2 || x.cls == 5))) 17 (o + p),
     must (if x.cls = 0 ∨ x.cls = 5 then x.writer == 0xFF else decide (x.writer ≤ 15)) 17 (o + p + 3),
     must (if x.cls = 3 then decide (x.barrier ≤ 7) else x.barrier == 0xFF) 17 (o + p + 6),
     must (!(x.kind == 2 && (x.cls == 0 || x.cls == 1)) && decide (x.kind ≤ 2)) 17 (o + p + 8),
     (nonZero b (p + 7) 1).map (fun j => (17, o + j)),
     (nonZero b (p + 10) 2).map (fun j => (17, o + j))]

def exchCheck (b : List Byte) (o : Nat) : Bad :=
  let es := (recordOffs b.length 12).map (xEnt b)
  (List.range es.length).findSome? (fun n =>
    match es[n]? with
    | some x => exchEntryCheck (es.take n) b x (12 * n) o
    | none => none)

def deepEntryCheck (before : List DeepSlot) (d : DeepSlot) (p o : Nat) : Bad :=
  firstBad
    [must (decide (d.bank < 64)) 6 (o + p), must (decide (d.tile < 16)) 6 (o + p + 1),
     must (decide (d.cls ≤ 2)) 6 (o + p + 2), must (decide (d.write ≤ 1)) 6 (o + p + 3),
     must (within16 d.start) 6 (o + p + 4), must (within16 d.len && decide (16 ≤ d.len)) 6 (o + p + 8),
     must (decide (d.start + d.len ≤ 262144)) 5 (o + p + 4), must (d.rsvd == 0) 6 (o + p + 12),
     must (before.all (fun e => e.bank != d.bank || (e.tile == d.tile
       && (decide (e.start + e.len ≤ d.start) || decide (d.start + d.len ≤ e.start))))) 6 (o + p)]

def deepCheck (b : List Byte) (o : Nat) : Bad :=
  let es := (recordOffs b.length 16).map (deepSlot b)
  (List.range es.length).findSome? (fun n =>
    match es[n]? with
    | some d => deepEntryCheck (es.take n) d (16 * n) o
    | none => none)

/-- Size in bytes of a memory class: X, Y, deep, exchange (R609). -/
def classSize (c : Nat) : Nat := if c = 2 then 16777216 else if c = 3 then 524288 else 131072

/-- One SLACK_TABLE entry. DESIGN CHOICE (log entry 24): the PHASE of a free task must be 0; Table 3-8 states PHASE less
than PERIOD, which no value meets where PERIOD is 0. -/
def slackEntryCheck (e : SlackEnt) (n p o : Nat) : Bad :=
  let addr := e.result % 1073741824
  firstBad
    [must (decide (e.kind ≤ 1)) 6 (o + p + 2), must (decide (e.tflags ≤ 1)) 6 (o + p + 3),
     must (decide (e.entry < 8192)) 5 (o + p + 4), must (decide (e.save < 8192)) 5 (o + p + 6),
     must (decide (1 ≤ e.saveLen) && decide (e.saveLen ≤ 256)) 6 (o + p + 8),
     must (decide (e.restore < 8192)) 5 (o + p + 10),
     must (decide (1 ≤ e.restoreLen) && decide (e.restoreLen ≤ 256)) 6 (o + p + 12),
     must (if e.kind = 1 then decide (1 ≤ e.period) else e.period == 0) 6 (o + p + 14),
     must (if e.kind = 1 then decide (e.phase < e.period) else e.phase == 0) 6 (o + p + 16),
     must (within16 addr) 6 (o + p + 24), must (decide (addr < classSize (e.result / 1073741824))) 5 (o + p + 24),
     must (e.rsvd == 0) 6 (o + p + 28), must (e.kind == 0 || n == 0) 6 (o + p)]

def slackCheck (b : List Byte) (o : Nat) : Bad :=
  let es := (recordOffs b.length 32).map (slackEnt b)
  (List.range es.length).findSome? (fun n =>
    match es[n]? with
    | some e => slackEntryCheck e n (32 * n) o
    | none => none)

/-- A handover entry (06 Table 6-8). -/
structure Hand where
  kind    : Nat
  srcCls  : Nat
  srcTile : Nat
  dstTile : Nat
  src     : Nat
  dst     : Nat
  len     : Nat
  dstCls  : Nat
  barrier : Nat
  deriving DecidableEq, Repr

def hand (b : List Byte) (p : Nat) : Hand :=
  ⟨le b p 1, le b (p + 1) 1, le b (p + 2) 1, le b (p + 3) 1, le b (p + 4) 4, le b (p + 8) 4, le b (p + 12) 4,
   le b (p + 16) 1, le b (p + 17) 1⟩

def handOffs (b : List Byte) : List Nat := (recordOffs (b.length - 48) 24).map (· + 48)
def handover (i : List Byte) : List Hand := let b := secBytes i 0x000A 0xFF; (handOffs b).map (hand b)
def predHash (i : List Byte) : List Byte := slice (secBytes i 0x000A 0xFF) 0 32

def tileField (cls tile : Nat) : Bool := if cls < 2 then decide (tile < 16) else tile == 0xFF

def handEntryCheck (b : List Byte) (p o : Nat) : Bad :=
  let h := hand b p
  let range := h.kind != 3
  firstBad
    [must (decide (h.kind ≤ 4)) 6 (o + p), must (decide (h.srcCls ≤ 3)) 6 (o + p + 1),
     must (decide (h.dstCls ≤ 3)) 6 (o + p + 16),
     must (!range || tileField h.srcCls h.srcTile) 6 (o + p + 2),
     must (!range || tileField h.dstCls h.dstTile) 6 (o + p + 3),
     must (!range || within16 h.src) 6 (o + p + 4), must (!range || within16 h.dst) 6 (o + p + 8),
     must (if range then within16 h.len else h.len == 0) 6 (o + p + 12),
     must (if h.kind = 1 then decide (h.barrier ≤ 7) else h.barrier == 0xFF) 6 (o + p + 17),
     zeros b (p + 18) 6 o,
     must (!range || decide (h.src + h.len ≤ classSize h.srcCls)) 5 (o + p + 4),
     must (!range || decide (h.dst + h.len ≤ classSize h.dstCls)) 5 (o + p + 8)]

def handCheck (b : List Byte) (o : Nat) : Bad :=
  firstBad
    [must (decide (48 ≤ b.length) && (b.length - 48) % 24 == 0 && le b 0x20 4 == (b.length - 48) / 24) 6 (o + 0x20),
     zeros b 0x24 12 o,
     (handOffs b).findSome? (fun p => handEntryCheck b p o)]

/-- Words that a FORMAT writes (06 Table 6-4). -/
def formatCount (f : Nat) : Nat := if 16 ≤ f then 5 else 1
def formatKnown (f : Nat) : Bool := [0, 1, 2, 16, 17, 18, 19, 20].contains f

/-- Vectors of memory that a binding names at its ADDRESS (R210, R612; 06 Table 6-6). -/
def bindVecs (e : Bind) : Nat :=
  if e.kind = 0 then e.vecs + 2 else if e.kind = 2 then 8 else if e.kind = 3 then 3 else if e.kind = 1 then 1 else 0

/-- ARG of Table 6-3: a position in a design function, or the side of a RAMP binding of a send to a stereo pair of the
header's LINK (R613); 0 otherwise. -/
def argOk (link : Nat) (e : Bind) : Bool :=
  if 16 ≤ e.format then decide (e.arg ≤ 3)
  else if e.kind = 1 ∧ e.key / 1048576 = 0x60 ∧ e.key / 16 % 2 = 0 ∧ link / 2 ^ (e.key / 16 % 128) % 2 = 1 then decide (e.arg ≤ 1)
  else e.arg == 0

def bindCheck (b : List Byte) (n o : Nat) : Bad :=
  let e := bindAt b n
  let p := o + 64 + 16 * n
  firstBad
    [must (decide (e.key < 268435456)) 6 p, must (decide (e.kind ≤ 4)) 6 (p + 4),
     must (if e.kind = 4 then e.tile == 0xFF else decide (e.tile < 16)) 6 (p + 5),
     must (decide (e.lane < 4) || e.lane == 0xFF) 6 (p + 6), must (formatKnown e.format) 6 (p + 7),
     must (if e.kind = 4 then e.addr == 0 else within16 e.addr) 6 (p + 8),
     must (decide (e.addr < 131072)) 5 (p + 8), must (argOk (le b 20 16) e) 6 (p + 12),
     must (if e.kind = 0 then decide (1 ≤ e.vecs) && decide (e.vecs ≤ 8) && decide (formatCount e.format ≤ e.vecs)
       else e.vecs == 0) 6 (p + 13),
     must (e.rsvd == 0) 6 (p + 14), must (decide (e.addr + 16 * bindVecs e ≤ 131072)) 5 (p + 8)]

def mapCheck (b : List Byte) (o : Nat) : Bad :=
  let base := le b 12 4
  let slots := le b 8 2
  firstBad
    [must (decide (64 ≤ b.length) && (b.length - 64) % 16 == 0 && le b 0 4 == (b.length - 64) / 16) 6 o,
     must (within16 (le b 4 4)) 6 (o + 4), must (decide (le b 4 4 < 131072)) 5 (o + 4),
     must (decide (slots ≤ 256)) 6 (o + 8), must (decide (le b 10 2 ≤ 4096)) 6 (o + 10),
     must (within16 base) 6 (o + 12), must (decide (base + 160 * slots ≤ 131072)) 5 (o + 12),
     must (within16 (le b 16 4)) 6 (o + 16), must (decide (le b 16 4 < 131072)) 5 (o + 16),
     zeros b 0x24 28 o,
     (List.range ((b.length - 64) / 16)).findSome? (fun n => bindCheck b n o)]

def lightEntryCheck (b : List Byte) (p o : Nat) : Bad :=
  firstBad
    [must (decide (le b p 2 / 4096 ≤ 3)) 6 (o + p), must (le b (p + 2) 2 != 0) 6 (o + p + 2),
     must (decide (le b (p + 4) 2 / 4096 ≤ 3)) 6 (o + p + 4), must (le b (p + 6) 2 != 0) 6 (o + p + 6),
     zeros b (p + 12) 4 o]

def lightCheck (b : List Byte) (o : Nat) : Bad :=
  firstBad [must (b.length % 16 == 0) 6 o, (recordOffs b.length 16).findSome? (fun p => lightEntryCheck b p o)]

def footEntryCheck (b : List Byte) (p o : Nat) : Bad :=
  let f := foot b p
  firstBad
    [must (decide (f.cls ≤ 3)) 6 (o + p), must (tileField f.cls f.tile) 6 (o + p + 1), zeros b (p + 2) 2 o,
     must (within16 f.start) 6 (o + p + 4), must (within16 f.len && decide (16 ≤ f.len)) 6 (o + p + 8),
     zeros b (p + 12) 4 o, must (decide (f.start + f.len ≤ classSize f.cls)) 5 (o + p + 4)]

/-- The length rules of R608; the offset is that of the entry's LENGTH field. -/
def lengthCheck (s : Sec) (lenOff : Nat) : Bad :=
  let ok := if s.type = 4 then s.len == 96 else if s.type = 5 then s.len == 16 else if s.type = 14 then s.len == 64
    else if s.type = 6 then s.len % 12 == 0 else if s.type = 9 then s.len % 32 == 0
    else if s.type = 1 ∨ s.type = 7 ∨ s.type = 13 then s.len % 16 == 0 else true
  must ok 6 lenOff

/-- CRC and own format of a section received whole; `n` is its entry's number. -/
def sectionCheck (i : List Byte) (n : Nat) : Bad :=
  let s := secAt i n
  let b := slice i s.off s.len
  match must (crc32c b == s.crc) 10 s.off with
  | some e => some e
  | none =>
    if !knownType s.type then none
    else
      match lengthCheck s (0x80 + 16 * n + 8) with
      | some e => some e
      | none =>
        if s.type = 2 ∨ s.type = 3 then initCheck b s.off 131072 (b.length / 16 + 1) 0
        else if s.type = 8 then initCheck b s.off 16777216 (b.length / 16 + 1) 0
        else if s.type = 4 then timingCheck b s.off
        else if s.type = 6 then exchCheck b s.off
        else if s.type = 7 then deepCheck b s.off
        else if s.type = 9 then slackCheck b s.off
        else if s.type = 10 then handCheck b s.off
        else if s.type = 11 then mapCheck b s.off
        else if s.type = 12 then lightCheck b s.off
        else if s.type = 13 then (recordOffs b.length 16).findSome? (fun p => footEntryCheck b p s.off)
        else none

/-! ## Programs (R84, R110, R199; 04 R141, R147, R152) -/

/-- The words of a TILE_PROGRAM. -/
def progWords (i : List Byte) (k : Nat) : List (BitVec 128) :=
  let b := secBytes i 0x0001 k
  (recordOffs b.length 16).map (fun o => BitVec.ofNat 128 (le b o 16))

/-- The C operation of a word; a reserved one counts as `NOP`. -/
def cOf (w : BitVec 128) : COp := (decodeC (bitsC w)).getD .nop

def isEnd (c : COp) : Bool :=
  match c with
  | .halt => true
  | .yield => true
  | _ => false

def opensLoop (c : COp) : Bool :=
  match c with
  | .loop _ => true
  | .loopR _ => true
  | _ => false

/-- A loop of a program: the words of its `LOOP` and `ENDL`, its count (`none` for a register count) and how deep it
lies. -/
structure LoopAt where
  start : Nat
  fin   : Nat
  count : Option Nat
  depth : Nat
  deriving DecidableEq, Repr

/-- The loops of a program by address, and the `LOOP` words left without an `ENDL`. -/
def loopScan : List (BitVec 128) → Nat → List (Nat × Option Nat) → List LoopAt → List LoopAt × List Nat
  | [], _, stack, acc => (acc, stack.map Prod.fst)
  | w :: r, a, stack, acc =>
    match cOf w with
    | .loop f => loopScan r (a + 1) ((a, some (f.n1.toNat + 1)) :: stack) acc
    | .loopR _ => loopScan r (a + 1) ((a, none) :: stack) acc
    | .endl =>
      match stack with
      | (s, n) :: t => loopScan r (a + 1) t (⟨s, a, n, t.length⟩ :: acc)
      | [] => loopScan r (a + 1) [] acc
    | _ => loopScan r (a + 1) stack acc

def inBody (ls : List LoopAt) (a : Nat) : Bool := ls.any (fun l => decide (l.start < a) && decide (a ≤ l.fin))

/-- How often the word at `a` runs in one pass over the program. -/
def runsOf (ls : List LoopAt) (a : Nat) : Nat :=
  (ls.filter (fun l => decide (l.start < a) && decide (a ≤ l.fin))).foldl (fun n l => n * l.count.getD 1) 1

/-- Segment lengths of the range from `a` on (R83, R84): a segment ends with its `BAR` or `HALT`. -/
def segScan (ls : List LoopAt) : List (BitVec 128) → Nat → Nat → List Nat
  | [], _, _ => []
  | w :: r, a, n =>
    let n' := n + runsOf ls a
    match cOf w with
    | .bar _ => n' :: segScan ls r (a + 1) 0
    | .halt => n' :: segScan ls r (a + 1) 0
    | _ => segScan ls r (a + 1) n'

/-- The longest latency that a word issues in the slots other than C, and 1 for its address updates (Table 4-5). -/
def latM (o : MOp) : Nat :=
  match o with
  | .nop => 0
  | .log2 _ => 4
  | .exp2 _ => 4
  | .rcp _ => 4
  | _ => 3

def latX (o : XOp) : Nat :=
  match o with
  | .nop => 0
  | .ldx _ => 2
  | .ldxB _ => 2
  | .ldxE _ => 4
  | .ldxEB _ => 4

def latY (o : YOp) : Nat :=
  match o with
  | .nop => 0
  | .ldy _ => 2
  | .ldyB _ => 2
  | .ldyD _ => 16

def latS (o : SOp) : Nat :=
  match o with
  | .nop => 0
  | .stx _ => 1
  | .sty _ => 1
  | .ste _ => 1
  | .std _ => 1
  | .mova _ => 2
  | .movv _ => 1
  | .movvS _ => 2
  | .movsR _ => 2
  | .movsW _ => 2

def latC (o : COp) : Nat :=
  match o with
  | .amod _ => 1
  | .setscl _ => 1
  | _ => 0

def latWord (w : BitVec 128) : Nat :=
  let m := ((decodeM (bitsM w)).map latM).getD 0
  let x := ((decodeX (bitsX w)).map latX).getD 0
  let y := ((decodeY (bitsY w)).map latY).getD 0
  let s := ((decodeS (bitsS w)).map latS).getD 0
  Nat.max (Nat.max m x) (Nat.max (Nat.max y s) (latC (cOf w)))

/-- What a sequence of words does to the number of steps still needed: it takes off `len`, and leaves at least `left`. -/
structure Settle where
  len  : Nat
  left : Nat
  deriving DecidableEq, Repr

def Settle.then (a b : Settle) : Settle := ⟨a.len + b.len, Nat.max (a.left - b.len) b.left⟩
def Settle.word (lat : Nat) : Settle := ⟨1, lat - 1⟩
def Settle.idle : Settle := ⟨0, 0⟩

/-- A body run `n` times, n ≥ 1; with a register count, any number of times from 0. -/
def Settle.times (a : Settle) (n : Option Nat) : Settle :=
  match n with
  | some n => ⟨a.len * n, a.left⟩
  | none => ⟨0, a.left⟩

/-- Addresses of `HALT` and `YIELD` words that issue too early along a sequence (R147). `stack` holds what ran before
each open loop. A `YIELD` ends a save or restore routine (`routine`); slack code goes on after it. -/
def earlyEnds (routine : Bool) : List (BitVec 128) → Nat → Settle → List (Settle × Option Nat) → List Nat
  | [], _, _, _ => []
  | w :: r, a, cur, stack =>
    let cur' := cur.then (Settle.word (latWord w))
    match cOf w with
    | .halt => if cur.left = 0 then [] else [a]
    | .yield =>
      let bad := if cur.left = 0 then [] else [a]
      if routine then bad else bad ++ earlyEnds routine r (a + 1) Settle.idle stack
    | .loop f => earlyEnds routine r (a + 1) Settle.idle ((cur', some (f.n1.toNat + 1)) :: stack)
    | .loopR _ => earlyEnds routine r (a + 1) Settle.idle ((cur', none) :: stack)
    | .endl =>
      match stack with
      | (before, n) :: t => earlyEnds routine r (a + 1) (before.then (cur'.times n)) t
      | [] => earlyEnds routine r (a + 1) cur' []
    | _ => earlyEnds routine r (a + 1) cur' stack

def inRange (a start len : Nat) : Bool := decide (start ≤ a) && decide (a < start + len)

/-- The barriers that a range executes, in order. -/
def barsIn (ws : List (BitVec 128)) (start len : Nat) : List Nat :=
  ((ws.drop start).take len).filterMap (fun w => match cOf w with | .bar b => some b.val | _ => none)

/-- A range under R110 (SECTION_FORMAT), and a barrier of the tile that it never joins (R80). -/
def rangeCheck (ws : List (BitVec 128)) (ls : List LoopAt) (mine : List Nat) (start len off : Nat) : Bad :=
  let body := (ws.drop start).take len
  firstBad
    [must (decide (1 ≤ len) && decide (start + len ≤ ws.length)) 6 off,
     must (body.all (fun w => match cOf w with | .yield => false | .loopR _ => false | _ => true)) 6 off,
     must ((List.range len).all (fun j => !opensLoop (cOf (ws.getD (start + j) 0))
       || ls.any (fun l => l.start == start + j && decide (l.fin < start + len)))) 6 off,
     must ((match body.getLast? with | some w => cOf w == .halt | none => false)
       && (body.dropLast).all (fun w => cOf w != .halt)) 6 off,
     must (mine.all (fun b => (barsIn ws start len).contains b)) 16 off]

/-- Out of place in its range: the tile is not in the barrier's mask, or an equal or later one came before (R80). -/
def barBad (ws : List (BitVec 128)) (mine : List Nat) (start a b : Nat) : Bool :=
  !mine.contains b || (barsIn ws start (a - start)).any (fun c => decide (b ≤ c))

/-- Address registers that the slots write or post-modify (R141): side and register. -/
def addrWrites (w : BitVec 128) : List (Bool × Nat) :=
  let post := fun (sd : Bool) (ad : AddrF) => if ad.oe then [(sd, ad.a.val)] else []
  (match decodeX (bitsX w) with
   | some (.ldx f) => post false f.ad
   | some (.ldxB f) => post false f.ad
   | some (.ldxE f) => post false f.ad
   | some (.ldxEB f) => post false f.ad
   | _ => [])
  ++ (match decodeY (bitsY w) with
   | some (.ldy f) => post true f.ad
   | some (.ldyB f) => post true f.ad
   | some (.ldyD f) => post true f.ad
   | _ => [])
  ++ (match decodeS (bitsS w) with
   | some (.stx f) => post false f.ad
   | some (.ste f) => post false f.ad
   | some (.sty f) => post true f.ad
   | some (.std f) => post true f.ad
   | some (.movsW f) => if f.code.toNat < 16 then [(decide (8 ≤ f.code.toNat), f.code.toNat % 8)] else []
   | _ => [])
  ++ (match cOf w with
   | .amod f => [(decide (f.side = .y), f.a.val)]
   | _ => [])

def noTwice : List (Bool × Nat) → Bool
  | [] => true
  | x :: r => !r.contains x && noTwice r

/-- `MOVS.W` to `LC0`, `LC1` or `ROT` (Table 5-7). -/
def writesLoop (w : BitVec 128) : Bool :=
  match decodeS (bitsS w) with
  | some (.movsW f) => [0x30, 0x31, 0x36].contains f.code.toNat
  | _ => false

def wordDecodes (w : BitVec 128) : Bool :=
  (decodeM (bitsM w)).isSome && (decodeX (bitsX w)).isSome && (decodeY (bitsY w)).isSome
    && (decodeS (bitsS w)).isSome && (decodeC (bitsC w)).isSome

def otherSlotsNop (w : BitVec 128) : Bool :=
  decide (bitsM w = 0) && decide (bitsX w = 0) && decide (bitsY w = 0) && decide (bitsS w = 0)

/-- What the word checks need of a tile's program. -/
structure ProgCtx where
  ws    : List (BitVec 128)
  ls    : List LoopAt
  open_ : List Nat
  early : List Nat
  mine  : List Nat
  fg    : Nat
  sw    : Nat
  swLen : Nat
  deriving DecidableEq, Repr

def progCtx (i : List Byte) (k : Nat) : ProgCtx :=
  let ws := progWords i k
  let t := timing i k
  let (ls, op) := loopScan ws 0 [] []
  let tab := slackTable i k
  let early := earlyEnds true (ws.take t.fgLen) 0 Settle.idle []
    ++ earlyEnds true ((ws.drop t.swapEntry).take t.swapLen) t.swapEntry Settle.idle []
    ++ tab.flatMap (fun e => earlyEnds false (ws.drop e.entry) e.entry Settle.idle []
        ++ earlyEnds true (ws.drop e.save) e.save Settle.idle []
        ++ earlyEnds true (ws.drop e.restore) e.restore Settle.idle [])
  ⟨ws, ls, op, early, (List.range 8).filter (fun b => maskHas (barMask i b) k), t.fgLen, t.swapEntry, t.swapLen⟩

/-- One instruction word: the rows of Table 5-9 in order, then the rest of R152. -/
def wordCheck (x : ProgCtx) (a : Nat) (w : BitVec 128) (off : Nat) : Bad :=
  let c := cOf w
  let inFg := inRange a 0 x.fg
  let inSw := inRange a x.sw x.swLen
  let body := inBody x.ls a || x.open_.any (fun s => decide (s < a))
  let bar := match c with | .bar _ => true | _ => false
  firstBad
    [must (wordDecodes w) 6 off,
     must (!isEnd c || otherSlotsNop w) 6 off,
     must (!x.early.contains a) 6 off,
     must (!(c == .yield && (inFg || inSw))) 6 off,
     must (!bar || inFg || inSw) 6 off,
     must (match c with
       | .bar b => !((inFg && barBad x.ws x.mine 0 a b.val) || (inSw && barBad x.ws x.mine x.sw a b.val))
       | _ => true) 16 off,
     must (!(opensLoop c && decide (2 ≤ (x.ls.filter (fun l => decide (l.start < a) && decide (a ≤ l.fin))).length))) 6 off,
     must (!(body && (isEnd c || bar))) 6 off,
     must (!(c == .endl) || x.ls.any (fun l => l.fin == a)) 6 off,
     must (match c with
       | .loopR f => x.ls.any (fun l => l.start == a && l.fin == f.endA.toNat)
       | _ => true) 6 off,
     must (!(writesLoop w && (body || opensLoop c))) 6 off,
     must (noTwice (addrWrites w)) 6 off,
     must (!x.open_.contains a) 6 off]

/-- Step 5 of R610 for one tile. A tile without a TILE_PROGRAM runs one `HALT` (R106) and never executes `BAR`, so a mask
that names it breaks R80; DESIGN CHOICE (log entry 24): the error is reported at that mask. -/
def progCheck (i : List Byte) (k : Nat) : Bad :=
  if hasSec i 0x0001 k then
    let x := progCtx i k
    let o := secStart i 0x0004 k
    firstBad
      [rangeCheck x.ws x.ls x.mine 0 x.fg o,
       rangeCheck x.ws x.ls x.mine x.sw x.swLen (o + 4),
       (List.range x.ws.length).findSome? (fun a => wordCheck x a (x.ws.getD a 0) (secStart i 0x0001 k + 16 * a))]
  else
    (List.range 8).findSome? (fun b => must (!maskHas (barMask i b) k) 16 (secStart i 0x0005 0xFF + 2 * b))

/-! ## Timing (R83, R84) -/

/-- The segment lengths of one range, derived on its own (R84): a word of a loop body whose `LOOP` lies before the range
issues once. -/
def rangeSegs (ws : List (BitVec 128)) (start len : Nat) : List Nat :=
  let r := (ws.drop start).take len
  segScan (loopScan r start [] []).1 r start 0

def segsOf (i : List Byte) (k : Nat) (swap : Bool) : List Nat :=
  if hasSec i 0x0001 k then
    let ws := progWords i k
    let t := timing i k
    if swap then rangeSegs ws t.swapEntry t.swapLen else rangeSegs ws 0 t.fgLen
  else [1]

/-- The clocks of the tiles and their segments still to run, after barrier `b` (R83). -/
def admitBar (i : List Byte) (b : Nat) (st : List (Nat × List Nat)) : List (Nat × List Nat) :=
  let mask := barMask i b
  let rel := (List.range 16).foldl (fun r k =>
    if maskHas mask k then let p := st.getD k (0, []); Nat.max r (p.1 + p.2.headD 0) else r) 0 + 6
  if mask = 0 then st
  else (List.range 16).map (fun k => let p := st.getD k (0, []); if maskHas mask k then (rel, p.2.drop 1) else p)

/-- A_t of the 16 tiles. -/
def admitSteps (i : List Byte) (swap : Bool) : List Nat :=
  let st := (List.range 8).foldl (fun st b => admitBar i b st) ((List.range 16).map (fun k => (0, segsOf i k swap)))
  st.map (fun p => p.1 + p.2.headD 0)

def maxOf (l : List Nat) : Nat := l.foldl Nat.max 0

/-- TILE_TIMING of one tile against the derived values, field by field. -/
def timingAgree (i : List Byte) (aN aS : List Nat) (k : Nat) : Bad :=
  if hasSec i 0x0004 k then
    let t := timing i k
    let o := secStart i 0x0004 k
    let sn := segsOf i k false
    let ss := segsOf i k true
    firstBad
      ([must (t.barCount == sn.length - 1) 15 (o + 12), must (t.aNormal == aN.getD k 0) 15 (o + 16),
        must (t.aSwap == aS.getD k 0) 15 (o + 20)]
       ++ (List.range 9).map (fun j => must (t.segNormal.getD j 0 == sn.getD j 0) 15 (o + 0x18 + 4 * j))
       ++ (List.range 9).map (fun j => must (t.segSwap.getD j 0 == ss.getD j 0) 15 (o + 0x3C + 4 * j)))
  else none

def timingAll (i : List Byte) : Bad :=
  let aN := admitSteps i false
  let aS := admitSteps i true
  firstBad ((List.range 16).map (timingAgree i aN aS)
    ++ [must (imgCritical i == maxOf aN) 15 0x40, must (imgCriticalSwap i == maxOf aS) 15 0x44])

/-! ## Steps 1 to 9 of R610 -/

def requiredCheck (i : List Byte) : Bad :=
  must ([6, 13, 14, 15].all (fun t => hasSec i t 0xFF)
    && (List.range 16).all (fun k => hasSec i 1 k == hasSec i 4 k)) 6 0x80

def placementCheck (i : List Byte) : Bad := must (sha256 (secBytes i 0x000F 0xFF) == imgPlacement i) 6 0x20

def barrierCheck (i : List Byte) : Bad :=
  (List.range 8).findSome? (fun b =>
    must (decide (b < imgBarriers i) || barMask i b == 0) 6 (secStart i 0x0005 0xFF + 2 * b))

def exchBarCheck (i : List Byte) : Bad :=
  let es := exchMap i
  (List.range es.length).findSome? (fun n =>
    match es[n]? with
    | some x =>
      let mask := barMask i x.barrier
      must (x.cls != 3 || (maskHas mask x.writer
        && (List.range 16).all (fun k => !maskHas x.readers k || maskHas mask k))) 17 (secStart i 0x0006 0xFF + 12 * n)
    | none => none)

/-- A binding's object (13 R457). -/
def objectCheck (b : Bind) (o : Nat) : Bad :=
  match objRow (b.key / 1048576) (b.key / 16 % 65536) (b.key % 16) with
  | some r =>
    must (decide (0x10 ≤ b.key / 1048576) && r.acc != .ro && r.acc != .cmd && (b.kind != 1 || r.acc == .rwr)
      && (!(b.kind == 0 || b.kind == 2 || b.kind == 3) || r.acc != .rwr)) 6 o
  | none => some (6, o)

def mapImageCheck (i : List Byte) : Bad :=
  if hasMap i then
    let pm := paramMap i
    let o := secStart i 0x000B 0xFF
    firstBad
      [must (!(decide (pm.base ≤ pm.scratch) && decide (pm.scratch < pm.base + 160 * pm.slots))
         && pm.binds.all (fun b => b.kind == 4 || b.addr != pm.scratch)) 6 (o + 16),
       pm.binds.findSome? (fun b => objectCheck b (o + 64 + 16 * b.idx)),
       must ((List.range 64).all (fun u => pm.link / 2 ^ (2 * u + 1) % 2 == 0)) 6 (o + 20)]
  else none

/-- Every vector of a range lies in one of the ranges. -/
def covered (rs : List VRange) (r : VRange) : Bool :=
  (List.range (r.hi - r.lo)).all (fun v => rs.any (fun x => x.bank == r.bank && inRange (r.lo + v) x.lo (x.hi - x.lo)))

def rangesMeet (a b : VRange) : Bool := a.bank == b.bank && decide (a.lo < b.hi) && decide (b.lo < a.hi)

/-- The handover map and the footprints (06 R234); `run` is the running image. -/
def handImageCheck (i run : List Byte) : Bad :=
  if hasSec i 0x000A 0xFF && predHash i == imgPlacement run && !run.isEmpty then
    let mine := footRanges i
    let live := footRanges run
    let hs := handover i
    let o := secStart i 0x000A 0xFF
    let fo := secStart i 0x000D 0xFF
    let adopted := (hs.filter (fun h => h.kind == 2)).flatMap (fun h => classRanges h.dstCls h.dstTile h.dst h.len)
    let fs := footprint i
    firstBad
      [(List.range hs.length).findSome? (fun n =>
         match hs[n]? with
         | some h => must (h.kind == 3 || ((classRanges h.srcCls h.srcTile h.src h.len).all (covered live)
             && (classRanges h.dstCls h.dstTile h.dst h.len).all (covered mine))) 6 (o + 48 + 24 * n)
         | none => none),
       (List.range fs.length).findSome? (fun n =>
         match fs[n]? with
         | some f => must ((classRanges f.cls f.tile f.start f.len).all (fun r =>
             live.all (fun l => !rangesMeet r l
               || covered adopted ⟨r.bank, Nat.max r.lo l.lo, Nat.min r.hi l.hi⟩))) 6 (fo + 16 * n)
         | none => none)]
  else none

/-- The key hash and the signature (R111, R112); `hash` is the fused customer key hash, none while blank. -/
def signatureCheck (i : List Byte) (hash : Option (List Byte)) : Bad :=
  let key := secBytes i 0x000E 0xFF
  let body := i.take (imgLength i - 64)
  let sg := ecPair (i.drop (imgLength i - 64))
  firstBad
    [must (match hash with | some h => sha256 key == h | none => true) 13 (secStart i 0x000E 0xFF),
     must (ecVerify (ecPair key) (sha256 body) sg.1 sg.2) 14 (imgLength i - 64)]

def imageCheck (i run : List Byte) (hash : Option (List Byte)) : Bad :=
  firstBad
    [requiredCheck i, placementCheck i, barrierCheck i, exchBarCheck i,
     (List.range 16).findSome? (progCheck i), timingAll i, mapImageCheck i, handImageCheck i run,
     signatureCheck i hash]

/-! ## Admission (R79, R85, R93) -/

def windowPs (rate : Nat) : Nat := 1000000000000 / rate - 500000

/-- G_t of R93. -/
def slackWindow (rate a tadm : Nat) : Int :=
  ((1000000000000 / rate : Nat) - 300000 - (a * tadm : Nat) : Int) / (tadm : Int)

def slackTaskCheck (i : List Byte) (tadm k n : Nat) (e : SlackEnt) : Bad :=
  must (decide ((16 + e.saveLen) * tadm + 10000 ≤ 300000)) 21 (secStart i 0x0009 k + 32 * n)

def boundCheck (i : List Byte) (tadm k n : Nat) (e : SlackEnt) : Bad :=
  let t := timing i k
  let g := slackWindow (imgRate i) t.aNormal tadm - e.restoreLen
  let g' := slackWindow (imgRate i) t.aSwap tadm - e.restoreLen
  must (e.kind == 0 || (decide ((e.jobSteps : Int) ≤ e.period * g)
    && decide ((e.jobSteps : Int) ≤ ((e.period : Int) - 1) * g + g'))) 22 (secStart i 0x0009 k + 32 * n)

def eachTask (i : List Byte) (f : Nat → Nat → SlackEnt → Bad) : Bad :=
  (List.range 16).findSome? (fun k =>
    let tab := slackTable i k
    (List.range tab.length).findSome? (fun n => match tab[n]? with | some e => f k n e | none => none))

/-- Admission of an image at a t_adm (ps) to a realm of rate `rate`. -/
def admitCheck (i : List Byte) (tadm rate : Nat) : Bad :=
  firstBad
    [must (tadm != 0xFFFFFFFF) 20 0x40, must (imgRate i == rate) 19 0x18,
     must (decide (imgCritical i * tadm ≤ windowPs rate)) 20 0x40,
     must (decide (imgCriticalSwap i * tadm ≤ windowPs rate)) 20 0x44,
     eachTask i (slackTaskCheck i tadm), eachTask i (boundCheck i tadm)]

end Sys2Proof.Machine
end

