-- ==== Sys2Proof/Machine/Mixing.lean ====
section
/-!
DEFINITION. The Keeper's side of mixing (06): codes of coefficient lanes (R208, R209, R217), ramp records (R210, R213
to R216), slots (R218), taps (R219), selectors (R221 to R224), staged coefficient sets (R207, R612), bus exponents
(R225, R226), and the records of an incoming image (R231, R232).
MARKED CHOICES of this file (DESIGN CHOICE, DEDUCED or PRESUMED): log entries 7, 20 and 22.
-/
namespace Sys2Proof.Machine

/-! ## Rates and frames -/

/-- The realm rates of SAMPLE_RATE (10 Table 10-6), in Hz. -/
def rateHz (code : Nat) : Nat := [44100, 48000, 88200, 96000, 176400, 192000].getD code 96000

def State.rate (s : State) (m : RealmId) : Nat := rateHz (s.onat m o22_SAMPLE_RATE)

/-- T of 03 R79. -/
def periodPs (rate : Nat) : Nat := 1000000000000 / rate

/-- The frame in progress. -/
def State.frameNo (s : State) (m : RealmId) : Nat := (s.frame m).number

/-- The time until the tick of a frame. -/
def untilFrame (s : State) (m : RealmId) (f : Nat) : Time :=
  (s.frame m).tickAt + (f - s.frameNo m) * periodPs (s.rate m) - s.now

/-- A time in µs rounded up to 100 µs, at least 100 µs. -/
def retryUs (t : Time) : Nat := Nat.max 100 ((t + 99999999) / 100000000 * 100)

/-! ## Objects by key -/

def keyPage (k : Nat) : Nat := k / 1048576
def keyIndex (k : Nat) : Nat := k / 16 % 65536
def keyElem (k : Nat) : Nat := k % 16
def keyRow (k : Nat) : Option ObjRow := objRow (keyPage k) (keyIndex k) (keyElem k)

def keyTy (k : Nat) : Ty := ((keyRow k).map (·.ty)).getD .cmd
def isGain (k : Nat) : Bool := keyTy k == .gain
def isMute (k : Nat) : Bool :=
  keyElem k == 1 && ((keyPage k == 0x40 && decide (keyIndex k < 512)) || (keyPage k == 0x50 && decide (keyIndex k < 128))
    || keyPage k == 0x58)
def isSend (k : Nat) : Bool := keyPage k == 0x60
def isOn (k : Nat) : Bool := isSend k && keyElem k == 1
def isPan (k : Nat) : Bool := keyPage k == 0x40 && keyElem k == 2 && decide (keyIndex k < 512)
/-- Another element of the same send. -/
def sendKey (k e : Nat) : Nat := k - k % 16 + e
def sendBus (k : Nat) : Nat := keyIndex k % 128

/-- An index of the odd member of a stereo pair of the running image addresses the pair (06 R241, 13 R460). -/
def aliasKey (pm : PMap) (k : Nat) : Nat :=
  if (keyPage k = 0x50 ∨ keyPage k = 0x60) ∧ keyIndex k % 2 = 1 ∧ linked pm (keyIndex k % 128) then k - 16 else k

/-- The value of an object in frame `f`, the writes accepted for it included (12 R424). -/
def valueAt (s : State) (m : RealmId) (f k : Nat) : Int :=
  let es := (s.realm m).bil.effects.filter (fun e => e.key == k && decide (e.frame ≤ f))
  match es.foldl (fun a e => match a with
      | some (b : Effect) => if b.frame ≤ e.frame then some e else some b
      | none => some e) none with
  | some e => e.value
  | none => s.oget m k

/-- The image whose records serve frame `f`, and whether it is the incoming one (06 R231). -/
def imageAt (s : State) (m : RealmId) (f : Nat) : List Byte × Bool :=
  let x := s.frame m
  match x.armed with
  | some a => if a.frame ≤ f then (bankImg x (otherBank x.active), true) else (runImg x, false)
  | none => (runImg x, false)

def tileSlots (x : Tile) (next : Bool) : Tbl Held := if next then x.slotsNext else x.slots
def setSlots (x : Tile) (next : Bool) (t : Tbl Held) : Tile := if next then { x with slotsNext := t } else { x with slots := t }
def tileSels (x : Tile) (next : Bool) : Tbl SelHeld := if next then x.selsNext else x.sels
def setSels (x : Tile) (next : Bool) (t : Tbl SelHeld) : Tile := if next then { x with selsNext := t } else { x with sels := t }

/-! ## Codes (R208, R209, R217) -/

/-- On a bus with two taps: the binding serves a tap that the send does not use (R219). -/
def tapIdle (pm : PMap) (img : Nat) (val : Nat → Int) (b : Bind) : Bool :=
  isSend b.key
    && decide (1 < (pm.binds.filter (fun c => c.kind == 1 && c.key == b.key && c.arg == b.arg)).length)
    && decide ((Config.tapOf img b.idx : Int) ≠ val (sendKey b.key 3))

/-- The code C of a lane driven by the bindings `bs`. DESIGN CHOICE (log entry 22): of a send that the image binds by any of
its objects, SEND_PAN and SEND_TAP count whether or not they are bound themselves, while SEND_GAIN and SEND_ON count only where
they are bound; the spec does not say which objects of a send drive its lane when some are unbound. -/
def laneCode (pm : PMap) (img : Nat) (val : Nat → Int) (bs : List Bind) : Int :=
  let gs := bs.filter (fun b => isGain b.key)
  if gs.any (fun b => val b.key == -32768) || bs.any (fun b => isOn b.key && val b.key == 0)
      || bs.any (fun b => isMute b.key && val b.key == 1) || bs.any (tapIdle pm img val) then offCode
  else
    let c := gainCode (gs.foldl (fun a b => a + val b.key) 0)
    match bs.find? (fun b => isSend b.key && linked pm (sendBus b.key)) with
    | some b => panCode c (b.arg % 2) (val (sendKey b.key 2))
    | none =>
      match bs.find? (fun b => isPan b.key) with
      | some b => panCode c (b.arg % 2) (val b.key)
      | none => c

def vecBinds (pm : PMap) (kind k a : Nat) : List Bind :=
  pm.binds.filter (fun b => b.kind == kind && b.tile == k && b.addr == a)
def laneBinds (pm : PMap) (k a i : Nat) : List Bind := (vecBinds pm 1 k a).filter (fun b => laneIn b i)

/-- A write to object `key` drives what binding `b` names. -/
def drives (key : Nat) (b : Bind) : Bool :=
  b.key == key || (isSend key && isSend b.key && keyIndex key == keyIndex b.key)

/-! ## Ramps (R210, R213 to R217) -/

/-- The value that a record gives for frame `f` of lane `i`, from its start on (R211). -/
def recAt (r : RampRec) (i : Fin 4) (f : Nat) : Int :=
  let j := f + 1 - r.s
  if j ≤ r.n then r.l0.get i + j * r.d.get i + (if (j : Int) < r.rm.get i then (j : Int) else r.rm.get i) else r.fin.get i

/-- The record in force in frame `f`. -/
def heldRec (h : Held) (f : Nat) : Option RampRec :=
  let old := h.cur.filter (fun r => decide (r.s ≤ f))
  match h.pend with
  | some p => if p.s ≤ f then some p else old
  | none => old

def samplesOf (ns rate : Nat) : Nat := (rne ((ns * rate : Nat) : Int) 1000000000).toNat

/-- The ramp time of a write in ns: its own, else MUTE_TIME for mute objects and RAMP_TIME otherwise (R214; 12 R420). -/
def rampNs (s : State) (m : RealmId) (key : Nat) (own : Option Nat) : Nat :=
  own.getD (if isMute key then s.onat m o5F_MUTE_TIME else s.onat m o5F_RAMP_TIME)

/-- N of a write to a ramped object, or of a tap change (R214, R219). -/
def writeSamples (s : State) (m : RealmId) (key : Nat) (own : Option Nat) : Nat :=
  if isSend key ∧ keyElem key = 3 then s.onat m o5F_XF_LENGTH else samplesOf (rampNs s m key own) (s.rate m)

/-- One lane of a new record: mode, first value, last value of the ramp and FINAL. -/
structure LaneGoal where
  mode  : Bool
  first : Int
  last  : Int
  fin   : Int
  deriving DecidableEq, Repr

/-- A code ramp from `p` to the code `c` (R214): from off it starts at the floor code, to off it ends at the floor. -/
def codeGoal (p c : Int) : LaneGoal :=
  if p = c then ⟨false, c, c, c⟩
  else ⟨false, if p = offCode then floorCode else p, if c = offCode then floorCode else c, c⟩

/-- The samples of a record still to run at the start of frame `f`. -/
def recLeft (r : RampRec) (f : Nat) : Nat := r.s + r.n - f

/-- A lane that the record moves (R217): one that neither changes nor ramps has Δ = Rm = 0 and its FINAL as L0. -/
def laneRamps (r : RampRec) (i : Fin 4) : Bool :=
  r.d.get i != 0 || r.rm.get i != 0 || (decide (r.n ≠ 0) && r.l0.get i != r.fin.get i)

/-- The samples still to run of the lanes whose ramp is in progress at frame `f` − 1 (R217). -/
def rampLeft (r : RampRec) (f : Nat) : Nat :=
  if ([0, 1, 2, 3] : List (Fin 4)).any (laneRamps r) then recLeft r f else 0

/-- The record, if any, that lane values in frame S − 1 follow; a record that itself starts at S is replaced whole from
its own start values. -/
def baseRec (h : Held) (start : Nat) : Option (RampRec × Bool) :=
  match h.pend with
  | some p => if p.s = start then some (p, true) else (heldRec h (start - 1)).map (fun r => (r, false))
  | none => (heldRec h (start - 1)).map (fun r => (r, false))

/-- The value, and whether it is linear in amplitude, that a lane has in frame `start` − 1 when the newest record was
never adopted: what the record before it gives, or else the value that the newest one was to start from (R215). -/
def lostValue (h : Held) (start : Nat) (i : Fin 4) : Option (Bool × Int) :=
  match h.cur, h.pend with
  | some r, _ => some (r.mode.get i, recAt r i (start - 1))
  | none, some p => if p.n = 0 then none else some (p.mode.get i, p.l0.get i)
  | none, none => none

/-- The goal of lane `i` of the vector at `a`: `tap` where a tap change of frame `start` drives it, `lost` where the
record staged before was not adopted; `v0` are the values before the change. -/
def laneGoal (pm : PMap) (img : Nat) (v0 v1 : Nat → Int) (h : Held) (start : Nat) (bs : List Bind) (tap lost : Bool)
    (i : Fin 4) : LaneGoal :=
  if bs.isEmpty then
    let w := (h.base.get i).toInt
    ⟨true, w, w, w⟩
  else
    let c0 := laneCode pm img v0 bs
    let c1 := laneCode pm img v1 bs
    let from_ := fun (linear : Bool) (p : Int) =>
      if linear || tap then (⟨true, if linear then p else exp2Word p, exp2Word c1, exp2Word c1⟩ : LaneGoal) else codeGoal p c1
    let rest := from_ false c0
    if lost then (lostValue h start i).elim rest (fun x => from_ x.1 x.2)
    else
      match baseRec h start with
      | some (r, own) =>
        if 0 < recLeft r start then from_ (r.mode.get i) (if own then r.l0.get i else recAt r i (start - 1))
        else rest
      | none => rest

/-- Δ and Rm of R213. -/
def mkRec (start n : Nat) (g : Quad LaneGoal) : RampRec :=
  let d := g.map (fun x => if n = 0 then 0 else (x.last - x.first) / (n : Int))
  let rm := g.imap (fun i x => if n = 0 then 0 else x.last - x.first - n * d.get i)
  ⟨start, n, g.map (·.mode), g.map (fun x => if n = 0 then x.fin else x.first), d, rm, g.map (·.fin)⟩

def slotBase (pm : PMap) (j : Nat) : Nat := (pm.base + 160 * j) / 16

def modeBits (q : Quad Bool) : Nat :=
  (if q.q0 then 1 else 0) + (if q.q1 then 2 else 0) + (if q.q2 then 4 else 0) + (if q.q3 then 8 else 0)

/-- The Keeper's vectors 0 to 4 of a slot (Table 6-5). -/
def putRec (s : State) (m : RealmId) (k base a : Nat) (r : RampRec) : State :=
  let s := putY s m k (base + 1) r.l0
  let s := putY s m k (base + 2) r.d
  let s := putY s m k (base + 3) r.rm
  let s := putY s m k (base + 4) r.fin
  putY s m k base ⟨(r.s % 4294967296 : Nat), (r.n : Nat), (a : Nat), (modeBits r.mode : Nat)⟩

/-- The slot that holds a coefficient vector, in frame `n`. -/
def heldSlot (t : Tbl Held) (slots n a : Nat) : Option Nat :=
  (List.range slots).find? (fun j => let h := tget Held.free t j; h.addr == some a && decide (n < h.release))

/-- A slot is free in frame `n` (R216). -/
def slotFree (t : Tbl Held) (n j : Nat) : Bool := decide ((tget Held.free t j).release ≤ n)
def freeSlots (t : Tbl Held) (slots n : Nat) : List Nat := (List.range slots).filter (slotFree t n)
def reserved (slots : Nat) : Nat := (slots + 7) / 8

/-- The slot a change may take: the one that served the vector last, else the first free one; a P1 change leaves one
eighth of the slots free (R218). -/
def pickSlot (t : Tbl Held) (slots n a : Nat) (p0 : Bool) : Option Nat :=
  let fr := freeSlots t slots n
  if p0 || decide (slots ≤ reserved slots) || decide (reserved slots < fr.length) then
    match fr.find? (fun j => (tget Held.free t j).addr == some a) with
    | some j => some j
    | none => fr.head?
  else none

/-- The distinct coefficient vectors (tile, address) that a write to `key` drives. -/
def drivenVecs (pm : PMap) (key : Nat) : List (Nat × Nat) :=
  (pm.binds.filter (fun b => b.kind == 1 && drives key b)).foldl
    (fun l b => if l.contains (b.tile, b.addr) then l else l ++ [(b.tile, b.addr)]) []

/-- The vector that a slot stores to: that of its newest record, or the one it served before (R211). -/
def slotDest (h : Held) : Option Nat := if h.cur.isSome || h.pend.isSome then h.addr else h.dest

/-- A slot taken for another vector that still stores to `a`, no record for the other having been staged. -/
def slotBack (t : Tbl Held) (slots a : Nat) : Option Nat :=
  (List.range slots).find? (fun j =>
    let h := tget Held.free t j
    h.dest == some a && h.addr != some a && h.cur.isNone && h.pend.isNone)

/-- Slot `j` is assigned to vector `a`. Where another slot still stores to `a` although it was assigned to a vector whose
record is yet to come, that slot serves `a` again and `j` the other vector: at most one slot writes a vector (R216). -/
def assignSlot (t : Tbl Held) (slots j a rel : Nat) (w : Quad (BitVec 32)) : Tbl Held :=
  let h := tget Held.free t j
  match slotBack t slots a with
  | some b =>
    let o := tget Held.free t b
    tput Held.free (tput Held.free t b ⟨some a, some a, rel, none, none, w⟩) j { o with dest := slotDest h }
  | none => tput Held.free t j ⟨some a, slotDest h, rel, none, none, w⟩

/-- Keep a slot for a vector until `rel`; a slot taken anew keeps the words that the vector holds (R210, R218). -/
def holdSlot (s : State) (m : RealmId) (next : Bool) (pm : PMap) (k a rel : Nat) (p0 : Bool) : State :=
  let n := s.frameNo m
  let t := tileSlots (s.tile m k) next
  match heldSlot t pm.slots n a with
  | some j =>
    let h := tget Held.free t j
    s.modTile m k (fun x => setSlots x next (tput Held.free t j { h with release := Nat.max h.release rel }))
  | none =>
    match pickSlot t pm.slots n a p0 with
    | some j =>
      let (w, s) := keeperVec s m k (a / 16)
      s.modTile m k (fun x => setSlots x next (assignSlot t pm.slots j a rel w))
    | none => s

/-- Slots are assigned when a change is accepted (R218). -/
def holdFor (s : State) (m : RealmId) (key start : Nat) (own : Option Nat) (p0 : Bool) : State :=
  let (img, next) := imageAt s m start
  let pm := paramMap img
  if hasMap img then
    (drivenVecs pm key).foldl
      (fun s v => holdSlot s m next pm v.1 v.2 (start + writeSamples s m key own + 1) p0) s
  else s

/-- A P1 change that finds too few free unreserved slots on a tile for the vectors it drives there: the retry-after in µs
(R218). -/
def slotBusy (s : State) (m : RealmId) (key start : Nat) : Option Nat :=
  let (img, next) := imageAt s m start
  let pm := paramMap img
  let n := s.frameNo m
  if hasMap img ∧ reserved pm.slots < pm.slots then
    (List.range 16).findSome? (fun k =>
      let t := tileSlots (s.tile m k) next
      let want := ((drivenVecs pm key).filter (fun v => v.1 == k && (heldSlot t pm.slots n v.2).isNone)).length
      if want = 0 ∨ want + reserved pm.slots ≤ (freeSlots t pm.slots n).length then none
      else
        let rel := ((List.range pm.slots).filter (fun j => !slotFree t n j)).foldl
          (fun a j => Nat.min a (tget Held.free t j).release) (n + 16777216)
        some (retryUs (untilFrame s m rel)))
  else none

/-- The tile has adopted a record of frame `start`, or can no longer miss it. -/
def adoptedAt (s : State) (m : RealmId) (k start : Nat) : Bool :=
  decide (start < s.frameNo m) || (decide (start = s.frameNo m) && (s.tile m k).halted == some (s.frameNo m))
def adopted (s : State) (m : RealmId) (k : Nat) (p : RampRec) : Bool := adoptedAt s m k p.s

/-- The record staged last in a slot, when one of frame `start` replaces it before it is adopted. -/
def lostRec (s : State) (m : RealmId) (k : Nat) (h : Held) (start : Nat) : Option RampRec :=
  h.pend.filter (fun p => !adopted s m k p && p.s != start)

/-- The words that lanes hold from the frame at which they reach their goals at once. -/
def goalWords (g : Quad LaneGoal) : Quad Int := g.map (fun x => if x.mode then x.fin else exp2Word x.fin)

/-- A change without a slot waits for the tick of its frame (N = 0, R218). -/
def putDirect (s : State) (m : RealmId) (d : DirectPut) : State :=
  s.modFrame m (fun f =>
    { f with direct := f.direct.filter (fun x => !(x.frame == d.frame && x.tile == d.tile && x.vec == d.vec)) ++ [d] })

/-- Stage one record for the vector at `a` of tile `k` (R217): the writes of frame `start` are those of `es`. -/
def stageVector (s : State) (m : RealmId) (k a start : Nat) (es : List Effect) : State :=
  let (img, next) := imageAt s m start
  let pm := paramMap img
  let n := s.frameNo m
  let t := tileSlots (s.tile m k) next
  let bs := vecBinds pm 1 k a
  let tap := fun b : Bind => es.any (fun e => isSend e.key && keyElem e.key == 3 && drives e.key b)
  let goals := fun h : Held =>
    let lost := lostRec s m k h start
    let before := lost.elim (start - 1) (fun p => Nat.min (start - 1) (p.s - 1))
    (Quad.all ()).imap (fun i _ =>
      let lb := bs.filter (fun b => laneIn b i.val)
      laneGoal pm (imgId img) (valueAt s m before) (valueAt s m start) h start lb (lb.any tap) lost.isSome i)
  let len := fun h : Held =>
    let base := if (lostRec s m k h start).isSome then h.cur.map (fun r => (r, false)) else baseRec h start
    (es.filter (fun e => bs.any (drives e.key))).foldl (fun x e => Nat.max x (writeSamples s m e.key e.ramp))
      (base.elim 0 (fun r => if r.2 then recLeft r.1 start else rampLeft r.1 start))
  match heldSlot t pm.slots n a with
  | some j =>
    let h := tget Held.free t j
    let r := mkRec start (len h) (goals h)
    let cur := match h.pend with
      | some p => if adopted s m k p then some p else h.cur
      | none => h.cur
    let h' : Held := { h with release := Nat.max h.release (start + r.n + 1), cur := cur, pend := some r }
    (putRec s m k (slotBase pm j) a r).modTile m k (fun x => setSlots x next (tput Held.free (tileSlots x next) j h'))
  | none =>
    let (w, s) := keeperVec s m k (a / 16)
    let g := goals { Held.free with base := w }
    putDirect s m ⟨start, k, a / 16, goalWords g⟩

/-! ## Staged sets, selectors (R207, R221, R224, R612) -/

/-- The words of a FORMAT from its arguments (Table 6-4). -/
def formatWords (format rate : Nat) (args : List Int) : List Int :=
  let a := args.getD 0 0
  if format = 1 then [if a = -32768 then offCode else gainCode a]
  else if format = 16 then biquad2 true a.toNat rate
  else if format = 20 then biquad2 false a.toNat rate
  else if format = 17 ∨ format = 18 ∨ format = 19 then
    biquadProto format a.toNat (args.getD 1 0) (if format = 17 then args.getD 2 0 else 0) rate
  else [a]

/-- The words of one lane of a STAGED record. -/
def laneWords (rate : Nat) (val : Nat → Int) (bs : List Bind) : List Int :=
  match bs with
  | [] => []
  | b :: _ =>
    formatWords b.format rate
      ((List.range 4).map (fun j => match bs.find? (fun c => c.arg == j) with | some c => val c.key | none => 0))

def stageSet (s : State) (m : RealmId) (img : List Byte) (k a f start : Nat) : State :=
  let pm := paramMap img
  let bs := vecBinds pm 0 k a
  let vecs := bs.foldl (fun n b => Nat.max n b.vecs) 0
  let ws := (Quad.all ()).imap (fun i _ =>
    laneWords (s.rate m) (valueAt s m f) (bs.filter (fun b => laneIn b i.val)))
  let s := forN vecs (fun j s => putY s m k (a / 16 + 1 + j) (ws.map (fun l => l.getD j 0))) s
  (putY s m k (a / 16) ⟨(start % 4294967296 : Nat), 0, 0, 0⟩).modTile m k (fun x => { x with sets := tput 0 x.sets a start })

/-- Candidates of the lanes of a selector record. -/
def candidates (pm : PMap) (val : Nat → Int) (k a : Nat) : Quad Nat :=
  quadOf (fun i => match (vecBinds pm 2 k a).find? (fun b => laneIn b i) with
    | some b => (val b.key).toNat
    | none => 0)

/-- Samples faded when frame `start` begins. -/
def selDone (r : SelRec) (start : Nat) : Nat := start - r.s

/-- A crossfade is under way in frame `f`. -/
def selFading (r : SelRec) (f : Nat) : Bool := decide (r.s < f) && decide (f < r.s + r.n) && r.old != r.new

def anyLane (p : Fin 4 → Bool) : Bool := p 0 || p 1 || p 2 || p 3

/-- The record of a change (R224): a lane's return to its OLD within the fade reverses the fade, any other change is a new
crossfade. DESIGN CHOICE (log entry 22): the lanes of a record share its weights, so a lane that does not return when another
does takes its own NEW candidate at once. -/
def selNext (s : State) (m : RealmId) (r : SelRec) (new : Quad Nat) (start : Nat) : SelRec :=
  let d := selDone r start
  if selFading r start ∧ anyLane (fun i => r.old.get i != r.new.get i && new.get i == r.old.get i) then
    let (cd, sd, _) := xfConsts r.shape r.curve
    let cs := xfState cd sd d (if r.back then (r.c0, r.s0) else (maxQ31, 0))
    let c := if r.shape = 1 then ((r.curve : Int) - ((if r.back then r.c0 else 0) + d), 0)
      else if r.shape = 2 then (cs.2, cs.1) else (-cs.1, cs.2)
    ⟨start, d, r.shape, r.new, new, c.1, c.2, true, r.curve⟩
  else
    let n := s.onat m o5F_XF_LENGTH
    ⟨start, n, s.onat m o5F_XF_SHAPE, r.new, new, maxQ31, 0, false, n⟩

/-- The record of a selector that the tile fades by: the newest one once it is adopted. -/
def selBase (s : State) (m : RealmId) (k : Nat) (h : SelHeld) : SelRec :=
  match h.pend with
  | some p => if adoptedAt s m k p.s then p else h.cur
  | none => h.cur

def putSel (s : State) (m : RealmId) (next : Bool) (k a : Nat) (r : SelRec) : State :=
  let (cd, sd, kappa) := xfConsts r.shape r.curve
  let s := putY s m k (a / 16 + 1) (r.new.map Int.ofNat)
  let s := putY s m k (a / 16 + 2) ⟨cd, sd, kappa, 0⟩
  let s := putY s m k (a / 16) ⟨(r.s % 4294967296 : Nat), (r.n : Nat), (r.shape : Nat), 0⟩
  let base := selBase s m k (tget SelHeld.none (tileSels (s.tile m k) next) a)
  s.modTile m k (fun x => setSels x next (tput SelHeld.none (tileSels x next) a ⟨base, some r⟩))

/-- The writes of frame `start` change the candidates of a selector record: it is staged. One that changes nothing leaves a
fade as it runs. -/
def stageSel (s : State) (m : RealmId) (next : Bool) (pm : PMap) (k a start : Nat) : State :=
  let h := tget SelHeld.none (tileSels (s.tile m k) next) a
  let base := selBase s m k h
  let new := candidates pm (valueAt s m start) k a
  if new = base.new ∧ h.pend.all (fun p => adoptedAt s m k p.s) then s
  else putSel s m next k a (selNext s m base new start)

/-- The frames at which pending writes change a selector record, in order and after `f`, through the fades they start: the end of
the first fade that a change meets without going back to OLD (R224). -/
def selClash (s : State) (m : RealmId) (pm : PMap) (k a : Nat) : SelRec → List Nat → Option Nat
  | _, [] => none
  | r, f :: l =>
    let new := candidates pm (valueAt s m f) k a
    if new = r.new then selClash s m pm k a r l
    else if selFading r f && anyLane (fun i => new.get i != r.new.get i && new.get i != r.old.get i) then some (r.s + r.n)
    else selClash s m pm k a (selNext s m r new f) l

/-! ## Headroom Follow (R225, R226) -/

/-- The bus of an EXPONENT binding. -/
def expBus (b : Bind) : Nat := keyIndex b.key % 128

/-- A send counts as an active input of its bus in frame `f`. -/
def sendActive (s : State) (m : RealmId) (f idx : Nat) : Bool :=
  (valueAt s m f (o60_SEND_ON + 16 * idx) == 1 && valueAt s m f (o60_SEND_GAIN + 16 * idx) != -32768)
    || decide (f < tget 0 (s.frame m).hrUntil idx)

/-- N_active of a bus in frame `f`: the strips whose send to it the image binds, and the bus and return inputs that the image
declares for it (log entry 22). -/
def busActive (s : State) (m : RealmId) (img : List Byte) (f u : Nat) : Nat :=
  if hasMap img = false then 0 else
  let pm := paramMap img
  let u := if linked pm u then u - u % 2 else u
  let strips := (pm.binds.filter (fun b => b.kind == 1 && isSend b.key && sendBus b.key == u)).foldl
    (fun l b => if l.contains (keyIndex b.key) then l else keyIndex b.key :: l) []
  (strips.filter (sendActive s m f)).length + Config.otherInputs (imgId img) u

def ceilLog : Nat → Nat → Nat → Nat
  | 0, _, _ => 0
  | f + 1, n, p => if n ≤ p then 0 else 1 + ceilLog f n (2 * p)

def busExponent (n : Nat) : Nat := if n ≤ 1 then 0 else Nat.min 10 (ceilLog 16 n 1)

def putExponent (s : State) (m : RealmId) (k a e start : Nat) : State :=
  putY (putY s m k (a / 16 + 1) ⟨(e : Nat), 0, 0, 0⟩) m k (a / 16) ⟨(start % 4294967296 : Nat), 0, 0, 0⟩

/-- Stage exponent `e` of bus `u` for frame `start` in every record that the image binds to it. -/
def stageExponent (s : State) (m : RealmId) (pm : PMap) (u e start : Nat) : State :=
  let s := (pm.binds.filter (fun b => b.kind == 3 && expBus b == u)).foldl (fun s b => putExponent s m b.tile b.addr e start) s
  s.modFrame m (fun f => { f with hrStaged := tput 0 f.hrStaged u e, hrStart := tput 0 f.hrStart u start,
                                  hrMoved := f.hrMoved.filter (fun x => x != u) })

def dedup (l : List Nat) : List Nat := l.foldl (fun a x => if a.contains x then a else a ++ [x]) []

/-- The buses with an EXPONENT binding. -/
def expBuses (pm : PMap) : List Nat := dedup ((pm.binds.filter (fun b => b.kind == 3)).map expBus)

/-- Stage the exponents that change in frame `start`. -/
def stageExponents (s : State) (m : RealmId) (start : Nat) : State :=
  let (img, _) := imageAt s m start
  let pm := paramMap img
  (expBuses pm).foldl (fun s u =>
    let e := busExponent (busActive s m img start u)
    if e = tget 0 (s.frame m).hrStaged u then s else stageExponent s m pm u e start) s

/-! ## Staging for a tile (R204) -/

def insertUp (x : Nat) : List Nat → List Nat
  | [] => [x]
  | y :: r => if x ≤ y then x :: y :: r else y :: insertUp x r
def sortUp (l : List Nat) : List Nat := l.foldr insertUp []

/-- A selector write in or before a crossfade of its record: the retry-after in µs (R224). `e` is the write. -/
def selBusy (s : State) (m : RealmId) (e : Effect) : Option Nat :=
  let (img, next) := imageAt s m e.frame
  let pm := paramMap img
  let s := s.modBil m (fun b => { b with effects := b.effects ++ [e] })
  (pm.binds.filter (fun b => b.kind == 2 && b.key == e.key)).findSome? (fun b =>
    let h := tget SelHeld.none (tileSels (s.tile m b.tile) next) b.addr
    let keys := (vecBinds pm 2 b.tile b.addr).map (·.key)
    let r := match h.pend with
      | some p => if p.s < e.frame ∨ adoptedAt s m b.tile p.s then p else h.cur
      | none => h.cur
    let fs := ((s.realm m).bil.effects.filter (fun x => !x.rw && keys.contains x.key && decide (r.s < x.frame))).map (·.frame)
    (selClash s m pm b.tile b.addr r (sortUp (dedup fs))).map (fun f => retryUs (untilFrame s m f)))

/-- The writes that go through records and start in frame `start`, and of these the ones tile `k` has not staged. -/
def dueAt (s : State) (m : RealmId) (start : Nat) : List Effect :=
  (s.realm m).bil.effects.filter (fun e => !e.rw && e.frame == start)

/-- The end of the ramps of frame `start` that a write drives, as staged: `start` for a change that has no slot. -/
def rampsEnd (s : State) (m : RealmId) (next : Bool) (pm : PMap) (key start : Nat) : Nat :=
  (drivenVecs pm key).foldl (fun x v =>
    (tileSlots (s.tile m v.1) next).foldl (fun x h =>
      if h.2.addr = some v.2 then h.2.pend.elim x (fun p => if p.s = start then Nat.max x (p.s + p.n) else x) else x) x) start

/-- A send that turns inactive counts until the last sample of its ramp (R225), whose N is that of its record (R217). -/
def noteInactive (s : State) (m : RealmId) (next : Bool) (pm : PMap) (start : Nat) (e : Effect) : State :=
  let i := keyIndex e.key
  if isSend e.key && decide (keyElem e.key < 2)
      && (valueAt s m start (sendKey e.key 1) != 1 || valueAt s m start (sendKey e.key 0) == -32768)
      && (sendActive s m (start - 1) i) then
    s.modFrame m (fun f =>
      { f with hrUntil := tput 0 f.hrUntil i (Nat.max (tget 0 f.hrUntil i) (rampsEnd s m next pm e.key start)) })
  else s

/-- The Keeper writes the records of tile `k` that start in frame `start`; those of an incoming image once its own records are
written (R231). A record not adopted before is replaced
whole (R215); the writes of a later frame whose record it was are staged again in their turn. -/
def stageTile (s : State) (m : RealmId) (k start : Nat) : State :=
  let es := (dueAt s m start).filter (fun e => !e.tiles.contains k)
  let (img, next) := imageAt s m start
  let pm := paramMap img
  if es.isEmpty || (next && decide (s.frameNo m + 2 < (s.frame m).armed.elim 0 (·.frame))) then s
  else
    let addrs := fun kind => dedup ((pm.binds.filter (fun b => b.kind == kind && b.tile == k
      && es.any (fun e => if kind = 1 then drives e.key b else e.key == b.key))).map (·.addr))
    let s := (addrs 1).foldl (fun s a => stageVector s m k a start (dueAt s m start)) s
    let s := (addrs 0).foldl (fun s a => stageSet s m img k a start start) s
    let s := (addrs 2).foldl (fun s a => stageSel s m next pm k a start) s
    let s := es.foldl (fun s e => noteInactive s m next pm start e) s
    s.modBil m (fun b => { b with effects := b.effects.map (fun e =>
      if e.rw then e
      else if e.frame = start then { e with tiles := k :: e.tiles }
      else if start < e.frame then { e with tiles := e.tiles.filter (· != k) }
      else e) })

/-- A record of tile `k` starts in the frame in progress or earlier than `start` and is not yet adopted. -/
def awaiting (s : State) (m : RealmId) (k start : Nat) : Bool :=
  let n := s.frameNo m
  let f := s.frame m
  let x := s.tile m k
  ((s.realm m).bil.effects.any (fun e => !e.rw && e.tiles.contains k && decide (e.frame < start)))
    || (f.running && x.halted != some n
      && (x.slots.any (fun h => h.2.pend.any (fun p => p.s == n)) || x.sels.any (fun h => h.2.pend.any (fun p => p.s == n))
        || x.sets.any (fun r => r.2 == n)))

/-- The Keeper writes at the tick of their frame the coefficients that change without a slot (R216, R218). -/
def flushDirect (s : State) (m : RealmId) : State :=
  let n := s.frameNo m
  let due := (s.frame m).direct.filter (fun d => decide (d.frame ≤ n))
  let s := s.modFrame m (fun f => { f with direct := f.direct.filter (fun d => decide (n < d.frame)) })
  due.foldl (fun s d => putY s m d.tile d.vec d.words) s

/-- Everything that must be staged by the tick of frame `n` (R204). -/
def stageDue (s : State) (m : RealmId) (n : Nat) : State :=
  let frames := sortUp (dedup (((s.realm m).bil.effects.filter (fun e => !e.rw && decide (e.frame ≤ n + 2))).map (·.frame)))
  let s := frames.foldl (fun s f => forN 16 (fun k s => stageTile s m k f) s) s
  stageExponents s m (n + 2)

/-! ## The incoming image (R231, R232) -/

/-- The values that an image takes at a SWAP: a selector value that is no candidate becomes candidate 0, a tap outside
the tap set becomes its first tap (R220; 13 R461). -/
def coerced (img : List Byte) (key : Nat) (v : Int) : Int :=
  let id := imgId img
  if isSend key ∧ keyElem key = 3 then
    (if Config.imageTap id (sendBus key) v.toNat then v else (Config.imageFirstTap id (sendBus key) : Int))
  else
    match keyRow key with
    | some r => if r.sel && !Config.imageCandidate id key v.toNat then 0 else v
    | none => v

/-- The value, ramp end and remaining samples of a lane that ramps in the running image, for an object that it binds. -/
def carryOf (s : State) (m : RealmId) (old : PMap) (start : Nat) (b : Bind) : Option (LaneGoal × Nat) :=
  (old.binds.filter (fun c => c.kind == 1 && c.key == b.key && c.arg == b.arg)).findSome? (fun c =>
    let x := s.tile m c.tile
    let i : Fin 4 := ⟨(if c.lane = 0xFF then 0 else c.lane) % 4, Nat.mod_lt _ (by decide)⟩
    match heldSlot x.slots old.slots 0 c.addr with
    | some j =>
      match heldRec (tget Held.free x.slots j) (start - 1) with
      | some r =>
        if 0 < recLeft r start then
          some (⟨r.mode.get i, recAt r i (start - 1), recAt r i (r.s + r.n - 1), r.fin.get i⟩, recLeft r start)
        else none
      | none => none
    | none => none)

/-- The coefficient vector at `a` of the incoming image: written directly, or through a slot where a ramp is carried. DESIGN
CHOICE (log entry 22): where lanes of one vector carry ramps with different samples left, the record's N is the largest of
them; R232 gives N for each ramp alone. -/
def initVector (s : State) (m : RealmId) (img : List Byte) (k a start : Nat) : State :=
  let pm := paramMap img
  let old := paramMap (runImg (s.frame m))
  let (w, s) := keeperVec s m k (a / 16)
  let lane := fun i : Fin 4 =>
    let bs := laneBinds pm k a i.val
    if bs.isEmpty then ((⟨true, (w.get i).toInt, (w.get i).toInt, (w.get i).toInt⟩ : LaneGoal), 0)
    else
      match bs.findSome? (carryOf s m old start) with
      | some x => x
      | none =>
        let c := laneCode pm (imgId img) (fun o => coerced img o (valueAt s m (start - 1) o)) bs
        (⟨false, c, c, c⟩, 0)
  let g := (Quad.all ()).imap (fun i _ => lane i)
  let n := g.toList.foldl (fun x y => Nat.max x y.2) 0
  let words := goalWords (g.map (·.1))
  if n = 0 then putY s m k (a / 16) words
  else
    let t := (s.tile m k).slotsNext
    match (heldSlot t pm.slots (s.frameNo m) a).or (pickSlot t pm.slots (s.frameNo m) a true) with
    | some j =>
      let r := mkRec start n (g.map (·.1))
      let rel := Nat.max (start + n + 1) (tget Held.free t j).release
      (putRec s m k (slotBase pm j) a r).modTile m k (fun x =>
        { x with slotsNext := tput Held.free x.slotsNext j ⟨some a, some a, rel, none, some r, w⟩ })
    | none => putY s m k (a / 16) words

/-- The record of a selector of the incoming image. A transition selector, which the image marks in a way that the spec does not
give (log entry 22), fades from the frame of the SWAP on with the length and shape in force at arming (R237); any other
has its candidates at once. -/
def initSel (s : State) (m : RealmId) (img : List Byte) (k a start xfLen xfShape : Nat) : State :=
  let pm := paramMap img
  let c := candidates pm (fun o => coerced img o (valueAt s m (start - 1) o)) k a
  if Config.transition (imgId img) k a then
    let (o, s) := keeperVec s m k (a / 16 + 5)
    putSel s m true k a ⟨start, xfLen, xfShape, o.map (·.toNat), c, maxQ31, 0, false, xfLen⟩
  else putSel s m true k a ⟨start, 0, 0, c, c, maxQ31, 0, false, 0⟩

/-- The Keeper writes the records of an image that starts in frame `start` from the object values (R231; 13 R461). -/
def initImage (s : State) (m : RealmId) (img : List Byte) (start xfLen xfShape : Nat) : State :=
  let pm := paramMap img
  if hasMap img then
    let s := forN 16 (fun k s =>
      let addrs := fun kind => dedup ((pm.binds.filter (fun b => b.kind == kind && b.tile == k)).map (·.addr))
      let s := (addrs 1).foldl (fun s a => initVector s m img k a start) s
      let s := (addrs 0).foldl (fun s a => stageSet s m img k a (start - 1) start) s
      (addrs 2).foldl (fun s a => initSel s m img k a start xfLen xfShape) s) s
    (expBuses pm).foldl (fun s u => stageExponent s m pm u (busExponent (busActive s m img start u)) start) s
  else s

end Sys2Proof.Machine
end

