-- ==== Sys2Proof/Machine/Loader.lean ====
section
/-!
DEFINITION. The frame loader (03 R113 to R119, R610, R611; 07 R267): the stream, the writes of a load, its failure, its
verification and its end.
MARKED CHOICES of this file (DESIGN CHOICE, DEDUCED or PRESUMED): log entries 24 and 29.
-/
namespace Sys2Proof.Machine

def bankKey (b : Fin 2) : Nat := if b = 0 then o14_BANK_STATE_A else o14_BANK_STATE_B

/-- A program bank changes state (Table 3-9); interrupt source LOADER (14 Table 14-12). -/
def setBank (s : State) (m : RealmId) (b : Fin 2) (v : Nat) : State :=
  ((s.modFrame m (fun f => setBankSt f b v)).oput m (bankKey b) (v : Nat)).irq m 10

def inactive (f : FrameSt) : Fin 2 := otherBank f.active
def loadState (s : State) (m : RealmId) : Nat := bankSt (s.frame m) (inactive (s.frame m))

/-! ## Deep banks used by an image (07 R267) -/

/-- Switch a deep bank ON: from RETAIN within 10 µs, from OFF within 120 µs (07 Table 7-3). -/
def deepOnNow (s : State) (m : RealmId) (b : Nat) : State :=
  let d := (s.realm m).deepPow b
  if ((s.realm m).deepComing b && !d.retain) || (d.st == 0 && d.target.isNone) then s
  else s.modMemory m (fun x =>
    { x with deep := tput DeepPow.reset x.deep b { d with retain := false, target := some (0, s.now + (if d.st = 2 then us 120 else us 10)) } })

/-- The banks that the network holds: the NET_BANKS highest-numbered ones (11 R403). -/
def netBank (s : State) (m : RealmId) (b : Nat) : Bool := decide (64 ≤ b + s.onat m o24_NET_BANKS)

def sectionBanks (i : List Byte) (sc : Sec) : List Nat :=
  if sc.type = 7 then (deepSlots i).map (·.bank)
  else if sc.type = 13 then
    (footprint i).flatMap (fun f => if f.cls = 2 then (classRanges 2 f.tile f.start f.len).map (·.bank - 0x40) else [])
  else if sc.type = 8 then
    let b := slice i sc.off sc.len
    (initRecords b (b.length / 16) 0).flatMap (fun r => (classRanges 2 0 r.2.1 r.2.2).map (·.bank - 0x40))
  else []

/-! ## Writes of a load -/

/-- The vector of 16 bytes, with generated residues where the memory holds residues. -/
def byteVec (l : List Byte) (res : Bool) : Vec :=
  quadOf (fun i => let w := BitVec.ofNat 32 (le l (4 * i) 4); if res then mkLane w else ⟨w, 0⟩)

/-- Write bytes from vector `v` of a bank on. -/
def putBytes (c : List Host.Cell) (bank v : Nat) (l : List Byte) (n : Nat) : List Host.Cell :=
  (List.range n).foldl (fun c j => putVec c bank (v + j) (byteVec (slice l (16 * j) 16) (bankHasRes bank))) c

/-- The memory class of an init section. -/
def initClass (t : Nat) : Nat := if t = 2 then 0 else if t = 3 then 1 else 2

/-- Ranges that a section writes, each with the bytes it takes. -/
def sectionWrites (i : List Byte) (sc : Sec) (bank : Fin 2) : List (VRange × List Byte) :=
  let b := slice i sc.off sc.len
  if sc.type = 1 then [(⟨(if bank = 0 then 0x20 else 0x30) + sc.tile, 0, b.length / 16⟩, b)]
  else if sc.type = 2 ∨ sc.type = 3 ∨ sc.type = 8 then
    (initRecords b (b.length / 16) 0).flatMap (fun r =>
      (classRanges (initClass sc.type) sc.tile r.2.1 r.2.2).map (fun v =>
        let skip := if sc.type = 8 then ((v.bank - 0x40) * 16384 + v.lo) * 16 - r.2.1 else 0
        (v, slice b (r.1 + 16 + skip) ((v.hi - v.lo) * 16))))
  else []

/-- The first record of an init section, or entry of DEEP_SLOTS or FOOTPRINT, that names a live range or a bank of the
network (R116; 11 R403). -/
def liveCheck (s : State) (m : RealmId) (i : List Byte) (sc : Sec) : Bad :=
  let b := slice i sc.off sc.len
  let live := footRanges (runImg (s.frame m))
  let badBank := fun v : VRange => decide (0x40 ≤ v.bank) && decide (v.bank < 0x80) && netBank s m (v.bank - 0x40)
  if sc.type = 2 ∨ sc.type = 3 ∨ sc.type = 8 then
    (initRecords b (b.length / 16) 0).findSome? (fun r =>
      must ((classRanges (initClass sc.type) sc.tile r.2.1 r.2.2).all
        (fun v => live.all (fun l => !rangesMeet v l) && !badBank v)) 18 (sc.off + r.1))
  else if sc.type = 7 then
    (recordOffs b.length 16).findSome? (fun p => must (!netBank s m (deepSlot b p).bank) 18 (sc.off + p))
  else if sc.type = 13 then
    (recordOffs b.length 16).findSome? (fun p =>
      let f := foot b p
      must ((classRanges f.cls f.tile f.start f.len).all (fun v => !badBank v)) 18 (sc.off + p))
  else none

/-! ## Failure (R115, R117) -/

/-- Every range that the load wrote becomes zero. -/
def zeroWrote (s : State) (m : RealmId) : State :=
  let c := (s.frame m).wrote.foldl (fun c r => zeroVecs c r.bank r.lo r.hi) (s.mem m)
  (s.setMem m c).modFrame m (fun f => { f with wrote := [] })

/-- A load ends with an error: the bank becomes FAILED, or EMPTY when aborted. -/
def failLoad (s : State) (m : RealmId) (code off : Nat) : State :=
  let b := inactive (s.frame m)
  let s := zeroWrote s m
  let s := setBank s m b (if code = 24 then 0 else 5)
  let s := s.oput m o14_LOAD_ERROR (code : Nat)
  let s := s.oput m o14_LOAD_ERROR_OFFSET (off : Nat)
  let s := s.oput m o14_PENDING_CRITICAL_STEPS 0
  let s := s.resetMaster m 1
  s.raise m 0x1404 o14_LOAD_ERROR

/-- A load in progress fails with ABORTED (R113; 07 R263; 16 R549). -/
def abortLoad (s : State) (m : RealmId) : State := failLoad s m 24 (s.onat m o14_LOAD_BYTES)

/-! ## The stream (R114, R115, R118) -/

/-- The sections whose last byte, or whose table entry if they are empty, has come between two lengths of the stream. -/
def sectionsDone (i : List Byte) (old new : Nat) : List Nat :=
  (List.range (imgCount i)).filter (fun n =>
    let sc := secAt i n
    let e := Nat.max (sc.off + sc.len) (tableEnd i)
    decide (old < e) && decide (e ≤ new))

/-- A section received whole: its checks, then its writes. -/
def takeSection (s : State) (m : RealmId) (i : List Byte) (n : Nat) : State × Bad :=
  let sc := secAt i n
  match sectionCheck i n with
  | some e => (s, some e)
  | none =>
    match liveCheck s m i sc with
    | some e => (s, some e)
    | none =>
      let s := (sectionBanks i sc).foldl (fun s b => deepOnNow s m b) s
      let ws := sectionWrites i sc (inactive (s.frame m))
      let c := ws.foldl (fun c w => putBytes c w.1.bank w.1.lo w.2 (w.1.hi - w.1.lo)) (s.mem m)
      ((s.setMem m c).modFrame m (fun f => { f with wrote := f.wrote ++ ws.map Prod.fst }), none)

def takeSections (s : State) (m : RealmId) (i : List Byte) : List Nat → State × Bad
  | [] => (s, none)
  | n :: r =>
    match takeSection s m i n with
    | (s, some e) => (s, some e)
    | (s, none) => takeSections s m i r

/-- 16 bytes are appended to the stream of a load. The last byte of TOTAL_LENGTH enters VERIFYING (R113, R610), also where
TOTAL_LENGTH ends within the section table. -/
def appendStream (s : State) (m : RealmId) (data : List Byte) : State :=
  let old := (s.frame m).stream.length
  let i := (s.frame m).stream ++ data
  let new := i.length
  let s := s.modFrame m (fun f => { f with stream := i, lastByte := s.now })
  let s := s.oput m o14_LOAD_BYTES (new : Nat)
  let hdr := if old < 128 ∧ 128 ≤ new then headerCheck i else none
  let tab := if old < tableEnd i ∧ tableEnd i ≤ new ∧ 128 ≤ old then tableCheck i else none
  match firstBad [hdr, tab] with
  | some e => failLoad s m e.1 e.2
  | none =>
    if new < 128 then s
    else if new < tableEnd i then
      (if imgLength i ≤ new then setBank s m (inactive (s.frame m)) 2 else s)
    else
      match takeSections s m i (sectionsDone i old new) with
      | (s, some e) => failLoad s m e.1 e.2
      | (s, none) => if imgLength i ≤ new then setBank s m (inactive (s.frame m)) 2 else s

/-- 128 bits that reach the stream window: appended while LOADING, too many while VERIFYING, discarded otherwise. -/
def streamVec (s : State) (m : RealmId) (data : List Byte) : State :=
  if loadState s m = 1 then appendStream s m data
  else if loadState s m = 2 then failLoad s m 12 (imgLength (s.frame m).stream)
  else s

def appendAll (s : State) (m : RealmId) : List (List Byte) → State
  | [] => s
  | d :: r => appendAll (streamVec s m d) m r

/-- Bytes that reach the stream window (R114, R118); `wide` is a 128-bit write. -/
def streamBytes (s : State) (m : RealmId) (data : List Byte) (wide : Bool) : State :=
  if wide then appendAll s m ((List.range (data.length / 16)).map (fun j => slice data (16 * j) 16))
  else if loadState s m = 1 then failLoad s m 26 (s.onat m o14_LOAD_BYTES)
  else if loadState s m = 2 then failLoad s m 12 (imgLength (s.frame m).stream)
  else s

/-! ## Verification (R610) -/

/-- The fused customer key hash; none while blank (R112). -/
def fusedHash (h : Hub) : Option (List Byte) :=
  if h.fuse.burned then some (toLe 32 h.fuse.hash) else none

/-- The bank becomes ADMITTED and LOAD_DONE is raised. -/
def admitImage (s : State) (m : RealmId) (i : List Byte) : State :=
  let b := inactive (s.frame m)
  let s := s.modFrame m (fun f => { setBankImg f b i with wrote := [] })
  let s := setBank s m b 3
  let s := s.oput m o14_PENDING_CRITICAL_STEPS (imgCritical i : Nat)
  let s := s.oput m o14_LOAD_STATUS (if (fusedHash s.hub).isNone then 1 else 0)
  s.raise m 0x1403 (bankKey b)

def verifyLoad (s : State) (m : RealmId) : State :=
  let i := (s.frame m).stream
  match firstBad [imageCheck i (runImg (s.frame m)) (fusedHash s.hub), admitCheck i (s.onat m o12_T_ADM) (s.rate m)] with
  | some e => failLoad s m e.1 e.2
  | none => admitImage s m i

/-! ## Commands -/

/-- LOAD_BEGIN is refused while the inactive bank is LOADING or VERIFYING, or a SWAP is armed (R119). -/
def loadBeginBusy (s : State) (m : RealmId) : Bool :=
  loadState s m == 1 || loadState s m == 2 || (s.frame m).armed.isSome

def loadBegin (s : State) (m : RealmId) : State :=
  let b := inactive (s.frame m)
  let s := s.modFrame m (fun f => { setBankImg f b [] with stream := [], wrote := [], lastByte := s.now })
  let s := setBank s m b 1
  let s := s.oput m o14_LOAD_ERROR 0
  let s := s.oput m o14_LOAD_ERROR_OFFSET 0
  let s := s.oput m o14_LOAD_BYTES 0
  s.oput m o14_PENDING_CRITICAL_STEPS 0

/-- A write into the stream window, 0x8001_0000 to 0x8001_FFFF (R114). -/
def execStreamWindowWrite (e : Ev) (_master : Nat) (data : List Byte) (be : BitVec 16) (s : State) : Result :=
  let s := s.at e.t
  .next (streamBytes s e.m data (be == BitVec.allOnes 16 && data.length % 16 == 0))

/-- The checks after the last byte (R610). -/
def execLoadVerify (e : Ev) (s : State) : Result :=
  let s := s.at e.t
  .next (if loadState s e.m = 2 then verifyLoad s e.m else s)

/-- No byte of the stream for 1 s (R118). -/
def execTruncated (e : Ev) (s : State) : Result :=
  let s := s.at e.t
  .next (if loadState s e.m = 1 ∧ (s.frame e.m).lastByte + sec 1 ≤ s.now
    then failLoad s e.m 11 (s.onat e.m o14_LOAD_BYTES) else s)

end Sys2Proof.Machine
end

