-- ==== Sys2Proof/Machine/Operands.lean ====
section
/-!
DEFINITION. The operand forms of a tile's slots (04 R126 to R130, R136 to R140, R148, R153; 05 R182): registers through
ROT, address registers with post-modify and modulo, scale registers, special registers.
-/
namespace Sys2Proof.Machine

/-! ## Vector registers and the rotating region -/

/-- Physical register named by `Vn` (04 R153). -/
def physV (rot : BitVec 4) (n : VReg) : VReg :=
  if n.val < 16 then n else ⟨16 + (n.val + 16 - rot.toNat) % 16, by omega⟩

def zeroVec : Vec := Quad.all ⟨0, 0⟩
def zeroAcc : Acc := Quad.all ⟨0, 0⟩

/-- A V register by its physical number. -/
def rdV (r : Regs) (n : VReg) : Vec := tget zeroVec r.v n.val
def wrV (r : Regs) (n : VReg) (w : Vec) : Regs := { r with v := tput zeroVec r.v n.val w }
/-- A V register as an instruction names it. -/
def srcV (r : Regs) (n : VReg) : Vec := rdV r (physV r.rot n)
def rdAcc (r : Regs) (n : Fin 8) : Acc := tget zeroAcc r.acc n.val
def wrAcc (r : Regs) (n : Fin 8) (w : Acc) : Regs := { r with acc := tput zeroAcc r.acc n.val w }
def rdP (r : Regs) (p : Fin 4) : BitVec 4 := tget 0 r.p p.val
def rdScl (r : Regs) (n : Fin 8) : BitVec 16 := tget 0 r.scl n.val

def rdAddr (r : Regs) (sd : Side) (n : Fin 8) : BitVec 24 :=
  match sd with
  | .x => tget 0 r.ax n.val
  | .y => tget 0 r.ay n.val
def rdOffs (r : Regs) (sd : Side) (n : Fin 8) : BitVec 16 :=
  match sd with
  | .x => tget 0 r.ox n.val
  | .y => tget 0 r.oy n.val
def rdMod (r : Regs) (sd : Side) (n : Fin 4) : BitVec 16 :=
  match sd with
  | .x => tget 0 r.mx n.val
  | .y => tget 0 r.my n.val

/-- The lanes of a four-lane merge: those of `mask` from `new`. -/
def mergeLanes (mask : BitVec 4) (new old : Vec) : Vec :=
  old.imap (fun i l => if mask.getLsbD i.val then new.get i else l)

/-! ## Addresses -/

/-- ceil(log2 n) (04 R140). -/
def ceilLog2Aux : Nat → Nat → Nat → Nat
  | 0, _, k => k
  | fuel + 1, n, k => if n ≤ 2 ^ k then k else ceilLog2Aux fuel n (k + 1)
def ceilLog2 (n : Nat) : Nat := ceilLog2Aux 16 n 0

/-- The updated address register (04 R140). -/
def nextAddr (a : BitVec 24) (o : Int) (len : Nat) : BitVec 24 :=
  if len = 0 then BitVec.ofInt 24 ((a.toNat : Int) + o)
  else
    let b := a.toNat / 2 ^ ceilLog2 len * 2 ^ ceilLog2 len
    BitVec.ofInt 24 ((b : Int) + ((a.toNat : Int) - b + o) % (len : Int))

/-- The modulo length that an operand names; none is linear. -/
def modLen (r : Regs) (sd : Side) (me : Bool) (md : Fin 4) : Nat := if me then (rdMod r sd md).toNat else 0

/-- The post-modify of a memory operand: the register's new value, where the operand modifies it (04 R139). -/
def postMod (r : Regs) (sd : Side) (ad : AddrF) : Option (BitVec 24) :=
  if ad.oe then
    some (nextAddr (rdAddr r sd ad.a) (rdOffs r sd ad.o).toInt (modLen r sd ad.me ad.md))
  else none

/-- Word address of a memory operand, its low `n` bits (04 Table 4-4, R137). -/
def wordAddr (r : Regs) (sd : Side) (ad : AddrF) (n : Nat) : Nat := (rdAddr r sd ad.a).toNat % 2 ^ n

/-! ## Scale registers (04 Table 4-2) -/

def sclExp (w : BitVec 16) : Nat := w.toNat / 256 % 16
def sclLink (w : BitVec 16) : Nat := w.toNat / 64 % 4
def sclSat (w : BitVec 16) : Bool := w.toNat / 32 % 2 == 1
def sclShift (w : BitVec 16) : Int :=
  let v := w.toNat % 32
  if v < 16 then (v : Int) else (v : Int) - 32

/-- The effective shift k (04 R129). -/
def effShift (w : BitVec 16) : Int :=
  if sclLink w = 1 then sclShift w + sclExp w
  else if sclLink w = 2 then sclShift w - sclExp w
  else sclShift w

/-! ## Loop registers (04 Table 4-3) -/

def lcActive (w : BitVec 64) : Bool := w.getLsbD 63
def lcRotate (w : BitVec 64) : Bool := w.getLsbD 62
def lcEnd (w : BitVec 64) : Nat := w.toNat / 2 ^ 36 % 8192
def lcStart (w : BitVec 64) : Nat := w.toNat / 2 ^ 20 % 8192
def lcCount (w : BitVec 64) : Nat := w.toNat % 131072

def lcWord (active rotate : Bool) (en start count : Nat) : BitVec 64 :=
  BitVec.ofNat 64 ((if active then 2 ^ 63 else 0) + (if rotate then 2 ^ 62 else 0) + en % 8192 * 2 ^ 36
    + start % 8192 * 2 ^ 20 + count % 131072)

/-- A written value with its reserved bits 0 and COUNT limited (04 R130, Table 4-3). -/
def lcClean (w : BitVec 64) : BitVec 64 :=
  lcWord (lcActive w) (lcRotate w) (lcEnd w) (lcStart w) (if lcCount w > 65536 then 65536 else lcCount w)

def lcGet (r : Regs) (i : Fin 2) : BitVec 64 := if i = 0 then r.lc0 else r.lc1

/-! ## Special registers (05 Table 5-7) -/

/-- A special register by its code. -/
inductive Spec where
  | addr (sd : Side) (n : Fin 8)
  | offs (sd : Side) (n : Fin 8)
  | modu (sd : Side) (n : Fin 4)
  | scl (n : Fin 8)
  | lc (i : Fin 2)
  | pred (p : Fin 4)
  | rot
  | step
  | epoch
  | acc (n : Fin 8) (p : Fin 3)
  deriving DecidableEq, Repr

def fin8 (n : Nat) : Fin 8 := ⟨n % 8, Nat.mod_lt _ (by decide)⟩
def fin4 (n : Nat) : Fin 4 := ⟨n % 4, Nat.mod_lt _ (by decide)⟩

/-- The register that a code names; none for a reserved code. -/
def specOf (code : BitVec 7) : Option Spec :=
  let c := code.toNat
  if c < 0x08 then some (.addr .x (fin8 c))
  else if c < 0x10 then some (.addr .y (fin8 c))
  else if c < 0x18 then some (.offs .x (fin8 c))
  else if c < 0x20 then some (.offs .y (fin8 c))
  else if c < 0x24 then some (.modu .x (fin4 c))
  else if c < 0x28 then some (.modu .y (fin4 c))
  else if c < 0x30 then some (.scl (fin8 c))
  else if c = 0x30 then some (.lc 0)
  else if c = 0x31 then some (.lc 1)
  else if c < 0x36 then some (.pred (fin4 (c - 0x32)))
  else if c = 0x36 then some .rot
  else if c = 0x37 then some .step
  else if c = 0x38 then some .epoch
  else if c < 0x40 then none
  else if c < 0x60 then
    if c % 4 = 0 then some (.acc (fin8 ((c - 0x40) / 4)) 0)
    else if c % 4 = 1 then some (.acc (fin8 ((c - 0x40) / 4)) 1)
    else if c % 4 = 2 then some (.acc (fin8 ((c - 0x40) / 4)) 2)
    else none
  else none

/-- The lanes that `MOVS.R` reads from a special register (04 R126; 05 R183), before residues are generated. -/
def specRead (r : Regs) (q : Spec) : Quad (BitVec 32) :=
  let one (w : BitVec 32) : Quad (BitVec 32) := ⟨w, 0, 0, 0⟩
  match q with
  | .addr sd n => one ((rdAddr r sd n).setWidth 32)
  | .offs sd n => one ((rdOffs r sd n).signExtend 32)
  | .modu sd n => one ((rdMod r sd n).setWidth 32)
  | .scl n => one ((rdScl r n).setWidth 32)
  | .lc i => ⟨(lcGet r i).setWidth 32, ((lcGet r i) >>> 32).setWidth 32, 0, 0⟩
  | .pred p => one ((rdP r p).setWidth 32)
  | .rot => one (r.rot.setWidth 32)
  | .step => one r.step
  | .epoch => one (r.epoch.setWidth 32)
  | .acc n p => (rdAcc r n).map (fun (a : AccLane) =>
      if p = 0 then BitVec.setWidth 32 a.data
      else if p = 1 then BitVec.setWidth 32 (a.data >>> (32 : Nat))
      else (BitVec.setWidth 16 (a.data >>> (64 : Nat))).signExtend 32)

/-- The mask of a written scale register: a reserved LINK keeps its field (00 R14). -/
def sclMask (w : BitVec 16) : BitVec 16 := if sclLink w = 3 then 0xFF3F else 0xFFFF
/-- A written scale value: bits 15 to 12 read 0, EXP 11 to 15 is stored as 10 (04 Table 4-2). -/
def sclClean (w : BitVec 16) : BitVec 16 :=
  BitVec.ofNat 16 ((if sclExp w > 10 then 10 else sclExp w) * 256 + w.toNat % 256)

/-- Whether a special register uses a lane of the source of `MOVS.W` (05 Table 5-7). -/
def specUses (q : Spec) (i : Fin 4) : Bool :=
  match q with
  | .lc _ => decide (i.val < 2)
  | .acc _ _ => true
  | _ => decide (i.val = 0)

/-- What `MOVS.W` writes, from the four lanes of its source; none where the write is discarded (04 R127). -/
def specWrite (q : Spec) (w : Quad (BitVec 32)) : Option Dst :=
  let lo := w.q0
  match q with
  | .addr sd n => some (.addr sd n (lo.setWidth 24))
  | .offs sd n => some (.offs sd n (lo.setWidth 16))
  | .modu sd n => some (.modu sd n (lo.setWidth 16))
  | .scl n => some (.scl n (sclMask (lo.setWidth 16)) (sclClean (lo.setWidth 16)))
  | .lc i => some (.lc i (lcClean (BitVec.ofNat 64 (lo.toNat + w.q1.toNat * 4294967296))))
  | .pred p => some (.pred p (lo.setWidth 4))
  | .rot => some (.rot (lo.setWidth 4))
  | .step => none
  | .epoch => none
  | .acc n p => some (.accPart n p w)

/-! ## Results written to registers -/

/-- One part of an accumulator lane replaced, with a residue generated from the new value (05 R184). -/
def accPart (p : Fin 3) (a : AccLane) (w : BitVec 32) : AccLane :=
  let d := a.data.toNat
  mkAcc (BitVec.ofNat 80 (
    if p = 0 then d / 2 ^ 32 * 2 ^ 32 + w.toNat
    else if p = 1 then d / 2 ^ 64 * 2 ^ 64 + w.toNat * 2 ^ 32 + d % 2 ^ 32
    else w.toNat % 65536 * 2 ^ 64 + d % 2 ^ 64))

/-- A result reaches its register (04 R142); results for memory leave the registers as they are. -/
def landReg (r : Regs) (d : Dst) : Regs :=
  match d with
  | .v n mask w => wrV r n (mergeLanes mask w (rdV r n))
  | .acc n w => wrAcc r n w
  | .accPart n p w => wrAcc r n ((rdAcc r n).imap (fun i a => accPart p a (w.get i)))
  | .pred p w => { r with p := tput 0 r.p p.val w }
  | .addr .x n w => { r with ax := tput 0 r.ax n.val w }
  | .addr .y n w => { r with ay := tput 0 r.ay n.val w }
  | .offs .x n w => { r with ox := tput 0 r.ox n.val w }
  | .offs .y n w => { r with oy := tput 0 r.oy n.val w }
  | .modu .x n w => { r with mx := tput 0 r.mx n.val w }
  | .modu .y n w => { r with my := tput 0 r.my n.val w }
  | .scl n mask w => { r with scl := tput 0 r.scl n.val ((rdScl r n &&& ~~~mask) ||| (w &&& mask)) }
  | .lc i w => if i = 0 then { r with lc0 := w } else { r with lc1 := w }
  | .rot w => { r with rot := w }
  | .memX _ _ => r
  | .memY _ _ => r
  | .memE _ _ => r
  | .memD _ _ _ => r

/-! ## Results in flight (04 R142 to R146) -/

/-- The rank of a slot: of two results of one word that reach a register together, that of the higher rank is kept
(04 R146: M, X, Y, S, C). -/
def slotRank : Slot → Nat
  | .c => 0
  | .s => 1
  | .y => 2
  | .x => 3
  | .m => 4

/-- Put a result behind every earlier one: ordered by issuing step, then rank. -/
def insFlight (f : Flight) : List Flight → List Flight
  | [] => [f]
  | g :: r => if f.issue < g.issue ∨ (f.issue = g.issue ∧ f.rank < g.rank) then f :: g :: r else g :: insFlight f r

/-- An operation of latency `lat` issues in the tile's current step. -/
def Tile.send (x : Tile) (sl : Slot) (lat : Nat) (d : Dst) : Tile :=
  { x with flight := insFlight ⟨lat, x.issued, slotRank sl, d⟩ x.flight }

def dstAcc (n : Fin 8) (d : Dst) : Bool :=
  match d with
  | .acc k _ => k == n
  | .accPart k _ _ => k == n
  | _ => false

/-- Results of an accumulator issued before the current step, in the order in which they are written. -/
def accFlights (x : Tile) (n : Fin 8) : List Flight :=
  let fs := x.flight.filter (fun f => dstAcc n f.dst && decide (f.issue < x.issued))
  (List.range 17).flatMap (fun l => fs.filter (fun f => f.left == l))

/-- The value an accumulator will hold once every earlier operation has completed (04 R144). -/
def accAhead (x : Tile) (n : Fin 8) : Acc :=
  rdAcc ((accFlights x n).foldl (fun r f => landReg r f.dst) x.regs) n

end Sys2Proof.Machine
end

