-- ==== Sys2Proof/Machine/SameStep.lean ====
section
/-!
DEFINITION. Accesses to one vector in one step (04 R133; 07 R248, R273): a tile's store takes effect first, then the realm-bus
accesses in their order, and a tile's load returns the vector as it stood before both. The step of a tile is the memory cycle
of its accesses; the lanes that bus writes and atomics store (07 R254, R255, R271).
MARKED CHOICES of this file (DESIGN CHOICE, DEDUCED or PRESUMED): log entry 30.
-/
namespace Sys2Proof.Machine

/-- The lane that a bus write of all four bytes stores. -/
def freshLane (bank : Nat) (w : BitVec 32) : Lane := if bankHasRes bank then mkLane w else ⟨w, 0⟩

/-- Bytes merged into a lane by their enables. -/
def mergeBytes (be : Nat) (new old : BitVec 32) : BitVec 32 :=
  BitVec.ofNat 32 (forN 4 (fun j a =>
    a + (if be / 2 ^ j % 2 = 1 then new.toNat / 256 ^ j % 256 else old.toNat / 256 ^ j % 256) * 256 ^ j) 0)

/-- One lane of an atomic (R271, R274). -/
def atomicLane (kind : Fin 3) (old : Lane) (w : BitVec 32) : Lane :=
  if kind = 2 then mkLane w
  else (addLike (old.data.toInt + w.toInt) (rI old.res + rI (res32 w)) (kind = 1) (laneOk old) (laneTally old)).lane

/-- A narrow write's vector: enabled bytes merged; of an uncorrectable vector every lane that is not wholly new is poisoned, or
0 where the class holds no residues (07 R255). -/
def mergeVec (bank : Nat) (bad : Bool) (v : Vec) (w : Quad (BitVec 32)) (be : BitVec 16) : Vec :=
  v.imap (fun i l =>
    let e := be.toNat / 16 ^ i.val % 16
    if e = 15 then freshLane bank (w.get i)
    else if bad then (if bankHasRes bank then l else ⟨0, 0⟩)
    else if e = 0 then l
    else freshLane bank (mergeBytes e (w.get i) l.data))

/-- The vector that an atomic stores (07 R271). -/
def atomicVec (kind : Fin 3) (lanes : BitVec 4) (w : Quad (BitVec 32)) (v : Vec) : Vec :=
  v.imap (fun i l => if lanes.getLsbD i.val then atomicLane kind l (w.get i) else l)

/-- A bus access carried out again on the vector that a tile's store of the same step leaves. -/
def actVec (bank : Nat) (v : Vec) (a : PortAct) : Vec :=
  match a with
  | .read => v
  | .write w be => mergeVec bank false v w be
  | .atomic kind lanes w => atomicVec kind lanes w v

/-- A tile's memory port reaches the bank: its own X and Y memory, deep memory and exchange memory. -/
def tileReaches (k bank : Nat) : Bool :=
  bank == k || bank == 0x10 + k || bank == 0x80 || (decide (0x40 ≤ bank) && decide (bank < 0x80))

/-- The vector that a store in flight writes. -/
def dstPlace (k : Nat) (d : Dst) : Option (Nat × Nat × Vec) :=
  match d with
  | .memX v w => some (k, v, w)
  | .memY v w => some (0x10 + k, v, w)
  | .memE v w => some (0x80, v, w)
  | .memD b v w => some (0x40 + b, v, w)
  | _ => none

/-- A tile's store takes effect, and after it every bus access to the vector that came earlier in the step. -/
def portStore (x : Tile) (c : List Host.Cell) (bank vec : Nat) (w : Vec) : List Host.Cell :=
  putVec c bank vec ((x.portB.filter (fun p => p.bank == bank && p.vec == vec)).foldl (fun v p => actVec bank v p.act) w)

/-- The exchange map's entry of a vector that a tile addresses. -/
def exchEntry (img : List Byte) (vec : Nat) : Option XEnt := (exchMap img).find? (fun x => x.vector == vec)

/-- The image that a tile runs. -/
def tileImg (f : FrameSt) (x : Tile) : List Byte := bankImg f x.bank

/-- The deadline of a frame has passed. -/
def pastDeadline (f : FrameSt) (n : Nat) : Bool := decide (n < f.number) || (decide (n = f.number) && f.deadline)

/-- A store to an output word of the tile's frame comes after the frame's deadline (02 R62). -/
def lateStore (f : FrameSt) (x : Tile) (d : Dst) : Bool :=
  match d with
  | .memE v _ => pastDeadline f x.frame && (match exchEntry (tileImg f x) v with
      | some e => e.cls == 1
      | none => false)
  | _ => false

/-- A store is written: one past its deadline is discarded and counted (02 R62), any other to exchange memory is noted as
written in the frame. -/
def landStore (s : State) (m : RealmId) (k : Nat) (d : Dst) : State :=
  match dstPlace k d with
  | none => s
  | some (b, v, w) =>
    let x := s.tile m k
    if lateStore (s.frame m) x d then s.bump m (o12_LATE_WRITES + 16 * k) 1
    else
      let s := s.setMem m (portStore x (s.mem m) b v w)
      if b = 0x80 then s.modTile m k (fun x => { x with written := v :: x.written }) else s

/-- The stores of the open step to a vector. -/
def storesTo (k bank vec : Nat) (f : Flight) : Bool :=
  decide (f.left ≤ 1) && (match dstPlace k f.dst with
    | some (b, v, _) => b == bank && v == vec
    | none => false)

/-- A bus access reaches a vector: for every tile whose open step may access it, the stores that have issued take effect, and
the access is noted with the vector as it stood. -/
def portAccess (s : State) (m : RealmId) (bank vec : Nat) (a : PortAct) : State :=
  let old := (getVec (s.mem m) bank vec).1
  forN 16 (fun k s =>
    if (s.tile m k).opened && tileReaches k bank then
      let s := ((s.tile m k).flight.filter (storesTo k bank vec)).foldl (fun s f => landStore s m k f.dst) s
      s.modTile m k (fun x => { x with flight := x.flight.filter (fun f => !storesTo k bank vec f),
                                       portB := x.portB ++ [⟨bank, vec, old, a⟩] })
    else s) s

/-- The vector that a tile's load returns. -/
def tileLoad (s : State) (m : RealmId) (k bank vec : Nat) : Vec × State :=
  match (s.tile m k).portB.find? (fun p => p.bank == bank && p.vec == vec) with
  | some p => (p.old, s)
  | none => s.rdVec m bank vec

end Sys2Proof.Machine
end

