-- ==== Sys2Proof/Machine/Bus.lean ====
section
/-!
DEFINITION. The realm bus (07 R245, R254, R255, R267, R271 to R274; 14 R475 to R488): the map with its Sectors, reads,
writes, narrow writes and atomics, decode errors under both policies, and the registers of the KC_, IC_ and BC_ blocks.
MARKED CHOICES of this file (DESIGN CHOICE, DEDUCED or PRESUMED): log entries 26, 28, 30 and 75.
-/
namespace Sys2Proof.Machine

/-! ## Sectors (14 Tables 14-5, 14-6) -/

/-- Reset values of the Sectors. -/
def sectorReset (n : Nat) : Sector :=
  match n with
  | 0 => ⟨0xF0000, 0b11001, 1, 24, true, true, 0⟩
  | 1 => ⟨0xF1000, 0b11001, 2, 24, true, true, 0⟩
  | 2 => ⟨0xF2000, 0b11001, 3, 19, true, true, 0⟩
  | 3 => ⟨0xF3000, 0b11001, 4, 20, false, true, 0⟩
  | 4 => ⟨0xF4000, 0b11001, 5, 17, true, true, 0⟩
  | 5 => ⟨0xF5000, 0b01001, 0, 18, true, true, 0x40⟩
  | _ => ⟨0, 0, 0, 12, false, false, 0⟩

def BusSt.sector (b : BusSt) (n : Nat) : Sector := tget (sectorReset n) b.sectors n
def BusSt.putSector (b : BusSt) (n : Nat) (x : Sector) : BusSt :=
  { b with sectors := tput (sectorReset n) b.sectors n x }

def Sector.lo (x : Sector) : Nat := x.base.toNat * 4096
def Sector.len (x : Sector) : Nat := 2 ^ x.size.toNat

/-- Base and size of a TARGET region. -/
def targetRegion (n : Nat) : Nat × Nat :=
  match n with
  | 0 => (0x10000000, 0x80000)
  | 1 => (0x40000000, 0x1000000)
  | 2 => (0x50000000, 0x1000000)
  | 3 => (0x60000000, 0x80000)
  | 4 => (0x70000000, 0x100000)
  | 5 => (0x80000000, 0x20000)
  | 6 => (0x08000000, 0x20000)
  | _ => (0, 0)

/-- The first word of a Sector's registers, read back. -/
def sectorWord (x : Sector) (reg : Nat) : Nat :=
  match reg with
  | 0 => x.base.toNat * 4096
  | 1 => x.masters.toNat * 4096 + x.target.toNat * 256 + x.size.toNat * 4 + (if x.write then 2 else 0) + (if x.enable then 1 else 0)
  | 2 => x.offset.toNat * 4096
  | _ => 0

/-- The fields that a register write leaves; a reserved TARGET or SIZE_LOG2 is not stored (00 R14). -/
def sectorSet (x : Sector) (reg v : Nat) : Sector :=
  match reg with
  | 0 => { x with base := BitVec.ofNat 20 (v / 4096) }
  | 1 =>
    let t := v / 256 % 8
    let z := v / 4 % 32
    { x with masters := BitVec.ofNat 5 (v / 4096), target := if t = 7 then x.target else BitVec.ofNat 3 t,
             size := if z < 12 ∨ 28 < z then x.size else BitVec.ofNat 5 z, write := v / 2 % 2 == 1, enable := v % 2 == 1 }
  | 2 => { x with offset := BitVec.ofNat 20 (v / 4096) }
  | _ => x

/-- R480: the window that an enabled Sector describes. -/
def sectorOk (b : BusSt) (n : Nat) (x : Sector) : Bool :=
  decide (x.lo % x.len = 0) && decide (0xC0000000 ≤ x.lo) && decide (x.lo + x.len ≤ 0x100000000)
    && decide (x.offset.toNat * 4096 + x.len ≤ (targetRegion x.target.toNat).2)
    && (List.range 8).all (fun j =>
      let y := b.sector j
      decide (j = n) || !y.enable || decide (x.lo + x.len ≤ y.lo) || decide (y.lo + y.len ≤ x.lo))

/-- A write of a Sector register (R480). -/
def writeSector (s : State) (m : RealmId) (n reg v : Nat) : State :=
  s.modBus m (fun b =>
    let x := sectorSet (b.sector n) reg v
    if x.enable && !sectorOk b n x then { b.putSector n { x with enable := false } with sectorError := true }
    else b.putSector n x)

/-! ## The map (14 R475 to R478) -/

/-- Where an access goes. -/
inductive Place where
  | mem (bank vec : Nat)
  /-- a deep bank on its way to ON -/
  | wait (bank vec : Nat)
  | reg (addr : Nat)
  | stream
  | priv (addr : Nat)
  | error
  deriving DecidableEq, Repr

/-- Master number as the map uses it: both network DMA channels are master 2. -/
def busMaster (k : Nat) : Nat := if k = 12 then 2 else k

def tilePlace (r : Realm) (master off : Nat) (write : Bool) : Place :=
  let k := off / 0x100000
  let w := off % 0x100000
  if w < 0x20000 then .mem k (w / 16)
  else if 0x40000 ≤ w ∧ w < 0x60000 then .mem (0x10 + k) ((w - 0x40000) / 16)
  else if 0x80000 ≤ w ∧ w < 0xC0000 then
    if write && master != 1 && r.mode != .maintenance then .error
    else if w < 0xA0000 then .mem (0x20 + k) ((w - 0x80000) / 16) else .mem (0x30 + k) ((w - 0xA0000) / 16)
  else .error

def deepPlace (r : Realm) (off : Nat) : Place :=
  let b := off / 0x40000
  let v := off % 0x40000 / 16
  if r.deepComing b then .wait (0x40 + b) v
  else if r.deepOn b then .mem (0x40 + b) v
  else .error

/-- The masters of a control block address (14 Table 14-3). -/
def controlPlace (r : Realm) (master addr : Nat) (write : Bool) : Place :=
  let off := addr - 0x80000000
  if 0x10000 ≤ off then (if master = 0 ∨ master = 2 ∨ master = 3 then .stream else .error)
  else if off < 0x1000 then
    if master = 0 then .reg addr
    else if master = 3 ∧ write ∧ off / 4 = 1 then .reg addr else .error
  else if off < 0x2000 then (if master = 0 then .reg addr else .error)
  else if off < 0x3000 then
    if master = 0 then .reg addr
    else if (master = 3 ∨ master = 4) ∧ (write = false ∨ (r.mode = .maintenance ∧ off < 0x2080)) then .reg addr
    else .error
  else .error

/-- The fixed regions (14 Table 14-2). `sec` is an access that comes through a Sector. -/
def fixedPlace (r : Realm) (master addr : Nat) (write sec : Bool) : Place :=
  if addr < 0x10000 then
    if master ≠ 0 then .error
    else if r.bus.remap then .mem 0x81 (addr / 16)
    else if write then .error else .mem 0x82 (addr / 16)
  else if 0x08000000 ≤ addr ∧ addr < 0x08020000 then
    if (master = 0 ∨ master = 4) ∧ write = false then .mem 0x82 ((addr - 0x08000000) / 16) else .error
  else if 0x10000000 ≤ addr ∧ addr < 0x10080000 then
    if master = 0 ∨ master = 2 ∨ master = 4 then .mem 0x81 ((addr - 0x10000000) / 16)
    else if master = 3 ∧ sec ∧ (r.mode = .bringUp ∨ r.mode = .maintenance) then .mem 0x81 ((addr - 0x10000000) / 16)
    else .error
  else if 0x40000000 ≤ addr ∧ addr < 0x41000000 then
    if master ≤ 4 then deepPlace r (addr - 0x40000000) else .error
  else if 0x50000000 ≤ addr ∧ addr < 0x51000000 then
    if master ≤ 4 then tilePlace r master (addr - 0x50000000) write else .error
  else if 0x60000000 ≤ addr ∧ addr < 0x60080000 then
    if master ≤ 5 then .mem 0x80 ((addr - 0x60000000) / 16) else .error
  else if 0x70000000 ≤ addr ∧ addr < 0x70100000 then
    if master = 0 ∨ ((master = 3 ∨ master = 4) ∧ write = false) then .mem 0x83 ((addr - 0x70000000) / 16) else .error
  else if 0x80000000 ≤ addr ∧ addr < 0x80020000 then controlPlace r master addr write
  else if 0x80020000 ≤ addr ∧ addr < 0x81000000 then (if master = 0 then .priv addr else .error)
  else .error

/-- The Sector in which an address lies. -/
def sectorAt (b : BusSt) (addr : Nat) : Option Sector :=
  ((List.range 8).map b.sector).find? (fun x => x.enable && decide (x.lo ≤ addr) && decide (addr < x.lo + x.len))

/-- The whole map. -/
def place (r : Realm) (master addr : Nat) (write : Bool) : Place :=
  let k := busMaster master
  if 0xC0000000 ≤ addr then
    match sectorAt r.bus addr with
    | some x =>
      if (k = 0 ∨ k = 3 ∨ k = 4) ∧ x.masters.getLsbD k ∧ (write = false ∨ x.write) then
        fixedPlace r k ((targetRegion x.target.toNat).1 + x.offset.toNat * 4096 + (addr - x.lo)) write true
      else .error
    | none => .error
  else fixedPlace r k addr write false

/-! ## Vectors as the bus sees them (07 R254, R255, R271) -/

/-- The lanes that a bus access reads: data with the lanes that carry the POISON indication. -/
def loadLanes (s : State) (m : RealmId) (bank vec : Nat) : (Quad (BitVec 32) × BitVec 4) × State :=
  let bad := (getVec (s.mem m) bank vec).2 == .uncorrectable
  let (v, s) := s.rdVec m bank vec
  if bankHasRes bank then
    let ok := v.map laneOk
    let fails := (ok.toList.filter (fun b => !b)).length
    let s := if fails = 0 then s else s.bump m o1A_EGRESS_POISON fails
    ((v.imap (fun i l => if ok.get i then l.data else 0),
      BitVec.ofNat 4 (modeBits (ok.map (fun b => !b)))), s)
  else if bad then ((Quad.all 0, 0xF), s)
  else ((v.map (·.data), 0), s)

/-- Read a vector, after the stores of the running step to it (R248). -/
def busLoad (s : State) (m : RealmId) (bank vec : Nat) : (Quad (BitVec 32) × BitVec 4) × State :=
  loadLanes (portAccess s m bank vec .read) m bank vec

/-- A KEEPER entry of the running image holds a physical vector as its half `h` (03 R606): the Keeper's write is made
current at the next tick. -/
def keeperWrite (s : State) (m : RealmId) (master bank vec : Nat) : State :=
  if master = 0 ∧ bank = 0x80 then
    match (exchMap (runImg (s.frame m))).find? (fun x => x.cls == 5 && (x.vector == vec || x.vector + 1 == vec)) with
    | some x =>
      let h := vec - x.vector
      if h = tget 0 (s.frame m).keeperHalf x.vector then s
      else s.modFrame m (fun f => { f with keeperPend := f.keeperPend ++ [(x.vector, h)] })
    | none => s
  else s

/-- Write a vector by byte enables (R254, R255). -/
def busStore (s : State) (m : RealmId) (master bank vec : Nat) (w : Quad (BitVec 32)) (be : BitVec 16) : State :=
  let s := portAccess s m bank vec (.write w be)
  let s :=
    if be = BitVec.allOnes 16 then s.wrVec m bank vec (w.map (freshLane bank))
    else
      let bad := (getVec (s.mem m) bank vec).2 == .uncorrectable
      let (v, s) := s.rdVec m bank vec
      s.wrVec m bank vec (mergeVec bank bad v w be)
  keeperWrite s m master bank vec

/-- The banks that serve an atomic (R272). -/
def atomicBank (bank : Nat) : Bool := decide (0x40 ≤ bank ∧ bank < 0x80) || bank == 0x80 || bank == 0x81

/-! ## Registers of the KC_, IC_ and BC_ blocks (14 Tables 14-4, 14-9, 14-13) -/

/-- The highest-priority eligible source (R493, R495). -/
def eligible (b : BusSt) : Option Nat :=
  (List.range 64).find? (fun n => b.pend.getLsbD n && !b.mask.getLsbD n)

def clearPend (b : BusSt) (n : Nat) : BusSt := { b with pend := b.pend &&& ~~~(BitVec.ofNat 64 (2 ^ n)) }

/-- Entry (R496): the vector that a read of IC_VEC returns. -/
def icEntry (b : BusSt) : Nat × BusSt :=
  if b.enable && b.inService == 0xFF then
    match eligible b with
    | some n => (n, { clearPend b n with inService := BitVec.ofNat 8 n, chained := false })
    | none => (0xFF, b)
  else (0xFF, b)

/-- Exit, and a chain where a source is eligible (R497, R498). -/
def icExit (b : BusSt) : BusSt :=
  if b.inService = 0xFF then b
  else
    match (if b.enable then eligible b else none) with
    | some n => { clearPend b n with inService := BitVec.ofNat 8 n, chained := true }
    | none => { b with inService := 0xFF, chained := false }

/-- Sources that are never pending (14 Table 14-12). -/
def icRealMask : BitVec 64 := 0xFFFF000003FFFFFF

def icRaise (b : BusSt) (v : Nat) : BusSt := { b with pend := b.pend ||| BitVec.ofNat 64 (v % 65536 * 2 ^ 48) }

def half (hi : Bool) (w : BitVec 64) : Nat := if hi then w.toNat / 4294967296 else w.toNat % 4294967296
def putHalf (hi : Bool) (w : BitVec 64) (v : Nat) : BitVec 64 :=
  if hi then BitVec.ofNat 64 (v * 4294967296 + w.toNat % 4294967296)
  else BitVec.ofNat 64 (w.toNat / 4294967296 * 4294967296 + v % 4294967296)

/-- A register's value and the state that its read leaves; `none` where no table lists the offset. A write-only register
reads 0. -/
def regRead (b : BusSt) (addr : Nat) : Option (Nat × BusSt) :=
  let off := addr % 0x1000
  let blk := addr / 0x1000 % 16
  if blk = 0 then
    (if off = 0 then some ((if b.remap then 1 else 0), b) else if off = 4 then some (b.patch * 2, b) else none)
  else if blk = 1 then
    match off with
    | 0x000 => some (half false b.pend, b)
    | 0x004 => some (half true b.pend, b)
    | 0x008 => some (half false b.mask, b)
    | 0x00C => some (half true b.mask, b)
    | 0x010 => some ((if b.enable then 1 else 0), b)
    | 0x014 => some (icEntry b)
    | 0x018 => some (0, b)
    | 0x01C => some ((if b.chained then 256 else 0) + b.inService.toNat, b)
    | 0x020 => some (0, b)
    | 0x024 => some (b.alarm.toNat, b)
    | _ => none
  else
    if off < 0x80 ∧ off % 4 = 0 then some (sectorWord (b.sector (off / 16)) (off % 16 / 4), b)
    else if off = 0x80 then
      some ((if b.watch then 16 else 0) + b.watchMaster % 8 * 2 + (if b.sectorError then 1 else 0), b)
    else if off = 0x84 then some (b.watchAddr, b)
    else none

/-- KC_PATCH.APPLY takes effect in BRING-UP and MAINTENANCE while STATE is 0 (R471). -/
def patchApply (s : State) (m : RealmId) : State :=
  let r := s.realm m
  if (r.mode = .bringUp ∨ r.mode = .maintenance) ∧ r.bus.patch = 0 then
    s.modBus m (fun b => { b with patch := 3, patchAt := s.now })
  else s

/-- A write of 32 bits to a listed register, under its access code (00 R12). -/
def regWrite (s : State) (m : RealmId) (master addr v : Nat) : State :=
  let off := addr % 0x1000
  let blk := addr / 0x1000 % 16
  if blk = 0 then
    if off = 0 then (if master = 0 then s.modBus m (fun b => { b with remap := v % 2 == 1 }) else s)
    else if off = 4 ∧ v % 2 = 1 then patchApply s m else s
  else if blk = 1 then
    s.modBus m (fun b =>
      match off with
      | 0x000 => { b with pend := b.pend &&& ~~~(BitVec.ofNat 64 (v % 4294967296)) }
      | 0x004 => { b with pend := b.pend &&& ~~~(BitVec.ofNat 64 (v % 4294967296 * 4294967296)) }
      | 0x008 => { b with mask := putHalf false b.mask v }
      | 0x00C => { b with mask := putHalf true b.mask v }
      | 0x010 => { b with enable := v % 2 == 1 }
      | 0x018 => icExit b
      | 0x020 => icRaise b v
      | 0x024 => { b with alarm := BitVec.ofNat 32 v }
      | _ => b)
  else if off < 0x80 then writeSector s m (off / 16) (off % 16 / 4) v
  else if off = 0x80 then
    s.modBus m (fun b => { b with watch := b.watch && v / 16 % 2 == 0, sectorError := b.sectorError && v % 2 == 0 })
  else s

/-- An address that a table of registers lists. -/
def regListed (b : BusSt) (addr : Nat) : Bool := (regRead b addr).isSome

/-! ## Transactions -/

def answer (s : State) (m : RealmId) (k : Nat) (a : BusAns) : State :=
  s.modBus m (fun b => { b with answers := tput BusAns.none b.answers k a })

/-- QoS that a master issues (14 Table 14-7); network transactions count as Keeper frames here. -/
def issuedQos (k : Nat) : Nat :=
  match k with
  | 0 => 4
  | 1 => 2
  | 2 => 4
  | 12 => 4
  | 3 => 2
  | 5 => 7
  | _ => 0

/-- What a decode error does to the master that met it (14 Table 14-8). -/
def decodeOutcome (s : State) (m : RealmId) (k : Nat) : State :=
  if k = 1 then (if loadState s m = 1 ∨ loadState s m = 2 then failLoad s m 5 (s.onat m o14_LOAD_BYTES) else s)
  else if k = 2 then s.bump m o24_RX_DROPS 1
  else if k = 12 then s.bump m (o24_RX_DROPS + 16) 1
  else s

/-- A decode error: ended at once under ERROR, held under HANG (R485 to R487). -/
def decodeError (s : State) (m : RealmId) (k addr : Nat) (op : BusOp) : State :=
  if (k = 3 ∨ k = 4) ∧ s.onat m o2A_DECODE_POLICY = 1 then
    s.modBus m (fun b => { b with waiting := b.waiting ++ [⟨k, addr, op, s.now, issuedQos k, true, false⟩] })
  else
    let n := match op with
      | .read beats => beats
      | _ => 0
    decodeOutcome (answer s m k ⟨List.replicate n (Quad.all 0), List.replicate n 0, true⟩) m k

/-- The vectors that a transaction addresses, and whether it writes. -/
def opBeats : BusOp → Nat
  | .read n => if n = 0 then 1 else if 16 < n then 16 else n
  | .write v => v.length
  | _ => 1
def opWrites : BusOp → Bool
  | .read _ => false
  | _ => true

/-- The byte address of a beat. -/
def beatAddr (addr j : Nat) : Nat := if j = 0 then addr else addr / 16 * 16 + 16 * j

/-- An access that the map refuses, an unlisted register, or an atomic to memory that serves none. -/
def placeBad (b : BusSt) (op : BusOp) (p : Place) : Bool :=
  match p with
  | .error => true
  | .reg a =>
    match op with
    | .atomic _ _ _ => true
    | .write _ => false
    | _ => !regListed b (a / 4 * 4)
  | .mem bank _ =>
    match op with
    | .atomic _ _ _ => !atomicBank bank
    | _ => false
  | .wait _ _ => false
  | _ =>
    match op with
    | .atomic _ _ _ => true
    | _ => false

/-- Place of every beat. -/
def places (r : Realm) (k addr : Nat) (op : BusOp) : List Place :=
  (List.range (opBeats op)).map (fun j => place r k (beatAddr addr j) (opWrites op))

def laneBe (en : BitVec 4) : BitVec 16 :=
  BitVec.ofNat 16 (forN 4 (fun j a => a + (if en.getLsbD j then 15 * 16 ^ j else 0)) 0)

/-- Sixteen bytes as four lanes. -/
def lanesOf (d : List Byte) : Quad (BitVec 32) := quadOf (fun i => BitVec.ofNat 32 (le d (4 * i) 4))
def lanesBytes (w : Quad (BitVec 32)) : List Byte := w.toList.flatMap (fun x => toLe 4 x.toNat)

/-- The registers of a vector; an unlisted one reads 0. -/
def regLanes (b : BusSt) (a : Nat) : Quad (BitVec 32) :=
  quadOf (fun i => BitVec.ofNat 32 (((regRead b (a / 16 * 16 + 4 * i)).map (·.1)).getD 0))

/-- One beat read: every register of its vector. A read acts on the register addressed alone (log entry 30). -/
def readBeat (s : State) (m : RealmId) (p : Place) : (Quad (BitVec 32) × BitVec 4) × State :=
  match p with
  | .mem bank vec => busLoad s m bank vec
  | .wait bank vec => busLoad s m bank vec
  | .reg a =>
    match regRead (s.realm m).bus (a / 4 * 4) with
    | some (_, b) => ((regLanes (s.realm m).bus a, 0), s.modBus m (fun _ => b))
    | none => ((Quad.all 0, 0), s)
  | _ => ((Quad.all 0, 0), s)

/-- The beats of a read, in turn. -/
def readBeats (s : State) (m : RealmId) : List Place → (List (Quad (BitVec 32) × BitVec 4)) × State
  | [] => ([], s)
  | p :: r =>
    let (a, s) := readBeat s m p
    let (b, s) := readBeats s m r
    (a :: b, s)

/-- What the bytes of a register that a write does not enable hold in it: the register's value where the field is RW, 0 where a
1 acts (00 R12). -/
def regBase (b : BusSt) (addr : Nat) : Nat :=
  let off := addr % 0x1000
  let blk := addr / 0x1000 % 16
  let rw := if blk = 0 then off == 0
    else if blk = 1 then off == 0x008 || off == 0x00C || off == 0x010 || off == 0x024
    else decide (off < 0x80)
  if rw then ((regRead b addr).map (·.1)).getD 0 else 0

/-- One beat written, by lane data and byte enables. -/
def writeBeat (s : State) (m : RealmId) (k : Nat) (p : Place) (w : Quad (BitVec 32)) (be : BitVec 16) (wide : Bool) : State :=
  match p with
  | .mem bank vec => busStore s m k bank vec w be
  | .wait bank vec => busStore s m k bank vec w be
  | .reg a =>
    forN 4 (fun i s =>
      let ad := a / 16 * 16 + 4 * i
      let en := be.toNat / 16 ^ i % 16
      let b := (s.realm m).bus
      if en ≠ 0 ∧ regListed b ad then
        regWrite s m k ad (mergeBytes en (w.get (fin4 i)) (BitVec.ofNat 32 (regBase b ad))).toNat else s) s
  | .stream => streamBytes s m (lanesBytes w) (wide && be == BitVec.allOnes 16)
  | _ => s

def writeBeats (s : State) (m : RealmId) (k : Nat) : List (Place × Quad (BitVec 32) × BitVec 4) → State
  | [] => s
  | (p, w, en) :: r => writeBeats (writeBeat s m k p w (laneBe en) true) m k r

/-- A narrow write, its bytes aligned within the vector by the byte enables. -/
def narrowBeat (s : State) (m : RealmId) (k : Nat) (p : Place) (data : List Byte) (be : BitVec 16) : State :=
  writeBeat s m k p (lanesOf data) be false

def atomicBeat (s : State) (m : RealmId) (k : Nat) (bank vec : Nat) (kind : Fin 3) (lanes : BitVec 4)
    (w : Quad (BitVec 32)) : State :=
  let s := portAccess s m bank vec (.atomic kind lanes w)
  let (old, s) := loadLanes s m bank vec
  let v := (getVec (s.mem m) bank vec).1
  let s := answer s m k ⟨[old.1], [old.2], false⟩
  if lanes = 0 then s
  else keeperWrite (s.wrVec m bank vec (atomicVec kind lanes w v)) m k bank vec

/-- A transaction that the map accepts takes place. -/
def perform (s : State) (m : RealmId) (k : Nat) (ps : List Place) (op : BusOp) : State :=
  match op with
  | .read _ =>
    let (l, s) := readBeats s m ps
    answer s m k ⟨l.map (·.1), l.map (·.2), false⟩
  | .write vecs => answer (writeBeats s m k (ps.zip vecs)) m k BusAns.none
  | .narrow data be => answer (narrowBeat s m k (ps.headD .error) data be) m k BusAns.none
  | .atomic kind lanes w =>
    match ps.headD .error with
    | .mem bank vec => atomicBeat s m k bank vec kind lanes w
    | .wait bank vec => atomicBeat s m k bank vec kind lanes w
    | _ => s

def placeWaits (p : Place) : Bool :=
  match p with
  | .wait _ _ => true
  | _ => false

/-- A master issues a transaction. One that has a transaction held, or whose reset is not complete, issues none. -/
def issue (s : State) (m : RealmId) (k addr : Nat) (op : BusOp) : State :=
  let r := s.realm m
  if r.bus.waiting.any (fun w => w.master == k) || tget 0 r.bus.resetting k != 0 then s
  else
    let ps := places r k addr op
    if ps.any (placeBad r.bus op) then decodeError s m k addr op
    else if ps.any placeWaits then
      s.modBus m (fun b => { b with waiting := b.waiting ++ [⟨k, addr, op, s.now, issuedQos k, false, false⟩] })
    else perform s m k ps op

/-- The first private register of a transaction (14 Table 14-2); an atomic to one is a decode error (07 R272). -/
def privAt (s : State) (m : RealmId) (k addr : Nat) (op : BusOp) : Option Nat :=
  match op with
  | .atomic _ _ _ => none
  | _ => (places (s.realm m) k addr op).findSome? (fun p => match p with | .priv a => some a | _ => none)

/-- Registers whose effects the spec does not give stop the block. -/
def busTrans (e : Ev) (k addr : Nat) (op : BusOp) (s : State) : Result :=
  let s := s.at e.t
  match privAt s e.m k addr op with
  | some a => .refused (.firmwareRegister a)
  | none => .next (issue s e.m k addr op)

def execBusRead (e : Ev) (master : Nat) (addr : Nat) (beats : Nat) (s : State) : Result :=
  busTrans e master addr (.read beats) s
def execBusWrite (e : Ev) (master : Nat) (addr : Nat) (vecs : List (Quad (BitVec 32) × BitVec 4)) (s : State) : Result :=
  busTrans e master addr (.write (vecs.take 16)) s
def execNarrowWrite (e : Ev) (master : Nat) (addr : Nat) (data : List Byte) (be : BitVec 16) (s : State) : Result :=
  busTrans e master addr (.narrow data be) s
def execAtomicAdd (e : Ev) (master : Nat) (addr : Nat) (lanes : BitVec 4) (operand : Quad (BitVec 32)) (s : State) : Result :=
  busTrans e master addr (.atomic 0 lanes operand) s
def execAtomicAddS (e : Ev) (master : Nat) (addr : Nat) (lanes : BitVec 4) (operand : Quad (BitVec 32)) (s : State) : Result :=
  busTrans e master addr (.atomic 1 lanes operand) s
def execAtomicSwap (e : Ev) (master : Nat) (addr : Nat) (lanes : BitVec 4) (operand : Quad (BitVec 32)) (s : State) : Result :=
  busTrans e master addr (.atomic 2 lanes operand) s

/-! ## Waiting transactions (14 R483, R488) -/

/-- QoS after the time waited; a held transaction does not age. -/
def aged (now : Time) (w : Wait) : Wait :=
  if w.held then w
  else { w with qos := Nat.max w.qos (Nat.min 6 (issuedQos w.master + (now - w.since) / us 4)) }

def execBusQosAgeing (e : Ev) (s : State) : Result :=
  let s := s.at e.t
  .next (s.modBus e.m (fun b => { b with waiting := b.waiting.map (aged s.now) }))

/-- A transaction outstanding for 1 ms (R488). -/
def watchDue (now : Time) (w : Wait) : Bool := !w.watched && decide (w.since + ms 1 ≤ now)

def execBusWatch (e : Ev) (s : State) : Result :=
  let s := s.at e.t
  let due := (s.realm e.m).bus.waiting.filter (watchDue s.now)
  .next (due.foldl (fun s w =>
    let s := s.modBus e.m (fun b =>
      { b with watch := true, watchMaster := busMaster w.master, watchAddr := w.addr,
               waiting := b.waiting.map (fun x => if x = w then { x with watched := true } else x) })
    ((s.irq e.m 7).bump e.m o2A_BUS_WATCH_COUNT 1).raise e.m 0x2A03 o2A_BUS_WATCH_COUNT) s)

/-- Whether every vector that a waiting transaction addresses is accessible now. -/
def waitReady (r : Realm) (w : Wait) : Bool := !w.held && !(places r w.master w.addr w.op).any placeWaits

/-- The next transaction served: highest QoS, then the master that follows the one served last (R483). -/
def nextWait (last : Nat) : List Wait → Option Wait
  | [] => none
  | w :: r =>
    match nextWait last r with
    | none => some w
    | some x =>
      let rank := fun y : Wait => (busMaster y.master + 6 - last % 6 - 1 + 6) % 6
      if x.qos < w.qos ∨ (x.qos = w.qos ∧ rank w ≤ rank x) then some w else some x

/-- Serve the transactions whose bank has become ON. -/
def serveWaits : Nat → State → RealmId → Nat → State
  | 0, s, _, _ => s
  | n + 1, s, m, port =>
    let r := s.realm m
    match nextWait (tget 0 r.bus.served port) ((r.bus.waiting.map (aged s.now)).filter (waitReady r)) with
    | none => s
    | some w =>
      let s := s.modBus m (fun b =>
        { b with served := tput 0 b.served port (busMaster w.master),
                 waiting := b.waiting.filter (fun x => !(x.master == w.master && x.addr == w.addr && x.since == w.since)) })
      let ps := places (s.realm m) w.master w.addr w.op
      let s := if ps.any (placeBad (s.realm m).bus w.op) then decodeError s m w.master w.addr w.op
        else perform s m w.master ps w.op
      serveWaits n s m port

/-! ## Control register commands (14 R480, R493 to R499) -/

/-- A write of a Sector register by the Keeper, or by master 3 or 4 in MAINTENANCE. -/
def execSectorWrite (e : Ev) (master : Nat) (n : Nat) (reg : Nat) (v : Nat) (s : State) : Result :=
  let s := s.at e.t
  let addr := 0x80002000 + 16 * n + 4 * reg
  .next (if 8 ≤ n ∨ 4 ≤ reg then decodeError s e.m master addr (.narrow (toLe 4 v) 0xF)
    else if controlPlace (s.realm e.m) (busMaster master) addr true = .error then
      decodeError s e.m master addr (.narrow (toLe 4 v) 0xF)
    else writeSector s e.m n reg (v % 4294967296))

/-- The Keeper reads IC_VEC; the vector is its answer. -/
def execIcVecRead (e : Ev) (s : State) : Result :=
  let s := s.at e.t
  let (n, b) := icEntry (s.realm e.m).bus
  .next (answer (s.modBus e.m (fun _ => b)) e.m 0 ⟨[⟨BitVec.ofNat 32 n, 0, 0, 0⟩], [0], false⟩)

def execIcEoiWrite (e : Ev) (_v : BitVec 32) (s : State) : Result :=
  .next ((s.at e.t).modBus e.m icExit)

def execIcRaiseWrite (e : Ev) (v : BitVec 32) (s : State) : Result :=
  .next ((s.at e.t).modBus e.m (fun b => icRaise b v.toNat))

end Sys2Proof.Machine
end

