-- ==== Sys2Proof/Machine/TileRun.lean ====
section
/-!
DEFINITION. How a tile runs: fetching the word of a step (07 R253), ending a step and writing the results that are due
(04 R142 to R146), illegal slots (05 R200), starting frames (03 R74; 02 R63 to R66) and slack tasks (03 R89 to R92).
MARKED CHOICES of this file (DESIGN CHOICE, DEDUCED or PRESUMED): log entries 11 and 17 to 19.
-/
namespace Sys2Proof.Machine

/-- The tile issues instruction words. -/
def ctxRuns : Ctx → Bool
  | .idle => false
  | .barrier _ _ => false
  | _ => true

def ctxFore : Ctx → Bool
  | .fore _ => true
  | _ => false

/-- A slack task, its save or its restore routine: the slack context of 04 R158. -/
def ctxSlack : Ctx → Bool
  | .slack _ => true
  | .save _ => true
  | .restore _ => true
  | _ => false

/-- The program bank that the tiles fetch from (04 R134). -/
def progBank (x : Tile) (k : Nat) : Nat := if x.bank = 0 then 0x20 + k else 0x30 + k

def taskOf (x : Tile) (e : Nat) : Task := tget Task.fresh x.tasks e
def setTask (x : Tile) (e : Nat) (t : Task) : Tile := { x with tasks := tput Task.fresh x.tasks e t }

/-- The slack entry whose code the tile runs. -/
def slackEntry (c : Ctx) : Option Nat :=
  match c with
  | .slack e => some e
  | .save e => some e
  | .restore e => some e
  | _ => none

/-- A word of the tile's program was damaged: its stores write poison for the rest of the frame, in slack code until the
task's next `YIELD` or `HALT` (07 R253). -/
def damage (x : Tile) : Tile :=
  match slackEntry x.ctx with
  | some e => setTask x e { taskOf x e with damaged := true }
  | none => { x with damaged := true }

/-- Stores write poison (07 R253). -/
def storesPoison (x : Tile) : Bool :=
  x.damaged || (match slackEntry x.ctx with
    | some e => (taskOf x e).damaged
    | none => false)

/-- The first slot of a word opens its step: the word is fetched; an uncorrectable error makes it execute as all-zero
and poisons the tile's later stores (07 R253). -/
def openStep (s : State) (m : RealmId) (k : Nat) : State :=
  let x := s.tile m k
  if x.opened then s
  else
    let b := progBank x k
    let (_, o) := getVec (s.mem m) b x.pc
    let (_, s) := s.rdVec m b x.pc
    let bad := o == .uncorrectable
    s.modTile m k (fun x =>
      { (if bad then damage x else x) with opened := true, dead := bad, used := [], nextPc := x.pc + 1 })

/-- An operation in a slot of a running tile. On a tile that issues nothing, in a word that executes as all-zero, and in a slot
of the word that has issued its operation, nothing is issued (log entry 11). -/
def tileOp (e : TEv) (sl : Slot) (s : State) (f : State → State) : Result :=
  let s := s.at e.t
  if ctxRuns (s.tile e.m e.k).ctx then
    let s := openStep s e.m e.k
    if (s.tile e.m e.k).dead || (s.tile e.m e.k).used.contains sl then .next s
    else .next (f (s.modTile e.m e.k (fun x => { x with used := sl :: x.used })))
  else .next s

/-- A slot that presents a condition of Table 5-9 executes as `NOP` and is counted; the first in each second raises
ILLEGAL_SLOT (05 R200). -/
def illegalSlot (s : State) (m : RealmId) (k : Nat) : State :=
  let s := s.bump m (o16_ILLEGAL_SLOT + 16 * k) 1
  let s := s.irq m 23
  s.raiseOnce m 0x1602 (o16_ILLEGAL_SLOT + 16 * k) k (sec 1)

/-- Tally faults of a tile (08 R282). -/
def tallyTile (s : State) (m : RealmId) (k : Nat) (n : Nat) : State :=
  if n = 0 then s else s.bump m (o1A_TALLY_TILE + 16 * k) n

def saturate (s : State) (m : RealmId) (k : Nat) (n : Nat) : State :=
  if n = 0 then s else s.bump m (o16_SATURATIONS + 16 * k) n

/-- A result reaches its register or its memory. -/
def landDst (s : State) (m : RealmId) (k : Nat) (d : Dst) : State :=
  match dstPlace k d with
  | some _ => landStore s m k d
  | none => s.modTile m k (fun x => { x with regs := landReg x.regs d })

def landList (s : State) (m : RealmId) (k : Nat) (l : List Flight) : State :=
  l.foldl (fun s f => landDst s m k f.dst) s

/-- The step ends: the results due are written in the order of 04 R146, `STEP` counts the word, and the next word is
the one that loop control chose. -/
def endStep (s : State) (m : RealmId) (k : Nat) : State :=
  let x := s.tile m k
  let due := x.flight.filter (fun f => decide (f.left ≤ 1))
  let rest := (x.flight.filter (fun f => decide (1 < f.left))).map (fun f => { f with left := f.left - 1 })
  let s := landList s m k due
  s.modTile m k (fun x =>
    { x with flight := rest, opened := false, dead := false, used := [], portB := [], issued := x.issued + 1, pc := x.nextPc,
             nextPc := x.nextPc + 1, regs := { x.regs with step := x.regs.step + 1 },
             slackSteps := if ctxSlack x.ctx then x.slackSteps + 1 else x.slackSteps })

/-- Every operation in flight completes, each in its turn (04 R147; 03 R91). -/
def drain (s : State) (m : RealmId) (k : Nat) : State :=
  let x := s.tile m k
  let l := (List.range 18).flatMap (fun n => x.flight.filter (fun f => f.left == n))
  (landList s m k l).modTile m k (fun x => { x with flight := [] })

/-! ## Slack tasks (03 R88 to R92) -/

/-- The first free entry: 1 when entry 0 is bound (03 R89). -/
def firstFree (tab : List SlackEnt) : Nat :=
  match tab with
  | e :: _ => if e.kind = 1 then 1 else 0
  | [] => 0

/-- The entries of the rotation from a place on, each once. -/
def rotationFrom (tab : List SlackEnt) (place : Nat) : List Nat :=
  let f := firstFree tab
  let n := tab.length - f
  (List.range n).map (fun i => f + (place + i) % n)

/-- The task that runs next, if one is runnable (03 R89). -/
def nextTask (x : Tile) (tab : List SlackEnt) : Option Nat :=
  let b := taskOf x 0
  if firstFree tab = 1 ∧ b.job.isSome ∧ b.ended = false then some 0
  else (rotationFrom tab x.rotation).find? (fun e => !(taskOf x e).ended)

/-- Run a task: its restore routine when that is due, else from where it stopped (03 R92). -/
def runTask (x : Tile) (tab : List SlackEnt) (e : Nat) : Tile :=
  match tab[e]? with
  | none => { x with ctx := .idle }
  | some d =>
    let t := taskOf x e
    let f := firstFree tab
    let rot := if f ≤ e then e - f else x.rotation
    let pc := if t.restoreDue then d.restore else t.resume.getD d.entry
    { x with ctx := if t.restoreDue then .restore e else .slack e, pc := pc, nextPc := pc + 1, rotation := rot }

/-- The tile turns to the next runnable slack task, or idles (03 R89, R90). A tile whose latest start was late runs
none (02 R63). -/
def pickSlack (x : Tile) (tab : List SlackEnt) : Tile :=
  if x.lateStart then { x with ctx := .idle }
  else
    match nextTask x tab with
    | some e => runTask x tab e
    | none => { x with ctx := .idle }

/-- The next place of the rotation after an entry's turn. -/
def turnPast (x : Tile) (tab : List SlackEnt) (e : Nat) : Tile :=
  let f := firstFree tab
  if f ≤ e then { x with rotation := if tab.length - f = 0 then 0 else (e - f + 1) % (tab.length - f) } else x

/-! ## Starting a frame -/

/-- Registers at foreground start (03 R74): `STEP`, `ROT`, `LC0`, `LC1` and the predicates 0, `EPOCH` the running
image's epoch, every other register kept. -/
def foreRegs (r : Regs) (epoch : Nat) : Regs :=
  { r with step := 0, rot := 0, lc0 := 0, lc1 := 0, p := [], epoch := BitVec.ofNat 16 epoch }

/-- The count of frame `n` in the running image (03 R606). -/
def imageFrame (f : FrameSt) (n : Nat) : Nat := f.k - (f.number - n)

/-- A tile starts frame `n` with a lateness in ps (02 R63), which LATENESS gives rounded down to whole ns (MODEL'S CHOICE, log
entry 17): the SWAP-frame program in the frame at which a SWAP with
handover takes effect, else the normal program (03 R121). -/
def startFore (s : State) (m : RealmId) (k : Nat) (n : Nat) (late : Time) : State :=
  let f := s.frame m
  let swap := f.swapHand && decide (f.swapFrame.map Prod.fst = some n)
  let pc := if swap then (timing (activeImg f) k).swapEntry else 0
  let s := s.modTile m k (fun x =>
    { x with regs := foreRegs x.regs (imgEpoch (activeImg f)), ctx := .fore swap, pc := pc, nextPc := pc + 1,
             opened := false, dead := false, damaged := false, used := [], portB := [], frame := n, bank := f.active, kf := imageFrame f n, joined := 0, written := [],
             lateStart := decide (late ≠ 0) })
  let s := imageRecords s m k n
  s.oput m (o12_LATENESS + 16 * k) ((late / 1000 : Nat) : Int)

/-- Instant of a frame's tick, for the frames a late tile may start: the current one, the one before it, and the one of
the last SWAP. -/
def tickOf (f : FrameSt) (n : Nat) : Time :=
  if n = f.number then f.tickAt
  else
    match f.swapFrame with
    | some (g, t) => if g = n then t else f.prevTick
    | none => f.prevTick

/-- The frame that a tile starts after a late `HALT` of frame `n`, if its start has come (02 R63, R65, R66): the latest
frame whose foreground start has passed, but no frame past the one at which a SWAP took effect. -/
def lateTarget (f : FrameSt) (n : Nat) : Option Nat :=
  let passed := if f.started then f.number else f.number - 1
  if n < passed then
    match f.swapFrame with
    | some (g, _) => if n < g ∧ g ≤ passed then some g else some passed
    | none => some passed
  else none

/-- A tile that waits to start takes up the current frame when its start has passed (02 R63). -/
def startIfDue (s : State) (m : RealmId) (k : Nat) : State :=
  let f := s.frame m
  let x := s.tile m k
  match lateTarget f x.frame with
  | some n => if f.running then startFore s m k n (s.now - (tickOf f n + ns 300)) else s
  | none => s

/-- `HALT` of the foreground program (02 R63 to R66; 03 R89). -/
def haltFore (s : State) (m : RealmId) (k : Nat) : State :=
  let f := s.frame m
  let n := (s.tile m k).frame
  let s := s.modTile m k (fun x => { x with halted := some n, ctx := .idle })
  if pastDeadline f n then startIfDue s m k
  else s.modTile m k (fun x => pickSlack x (slackTable (tileImg f x) k))

/-- `HALT` of a slack task ends its current job (03 R89). -/
def haltSlack (s : State) (m : RealmId) (k e : Nat) : State :=
  let tab := slackTable (tileImg (s.frame m) (s.tile m k)) k
  s.modTile m k (fun x =>
    let t := taskOf x e
    let x := setTask x e ⟨none, false, true, t.job, false⟩
    pickSlack (turnPast x tab e) tab)

/-- The end of a save routine: the tile waits for the foreground start, or starts at once when that has passed
(03 R91). -/
def endSave (s : State) (m : RealmId) (k : Nat) : State :=
  startIfDue (s.modTile m k (fun x => { x with ctx := .idle })) m k

/-- The current program of the tile halts, as its context says. -/
def haltTile (s : State) (m : RealmId) (k : Nat) : State :=
  match (s.tile m k).ctx with
  | .fore _ => haltFore s m k
  | .slack e => haltSlack s m k e
  | .restore e => haltSlack s m k e
  | .save e =>
    endSave (s.modTile m k (fun x => setTask x e ⟨none, false, true, (taskOf x e).job, false⟩)) m k
  | _ => s

/-- Slack code that would issue the word after address 8,191 executes `HALT` in its place (04 R135), in turn for every task that
the tile then turns to. MODEL'S CHOICE (log entry 11): that `HALT` counts no step. -/
def checkEndN : Nat → State → RealmId → Nat → State
  | 0, s, _, _ => s
  | n + 1, s, m, k =>
    let x := s.tile m k
    if ctxSlack x.ctx && decide (8191 < x.pc) then
      checkEndN n (haltTile (drain (s.bump m (o16_PROGRAM_END + 16 * k) 1) m k) m k) m k
    else s

/-- A slack table holds at most 16 tasks, and each ends its job here at most once. -/
def checkEnd (s : State) (m : RealmId) (k : Nat) : State := checkEndN 17 s m k

end Sys2Proof.Machine
end

