-- ==== Sys2Proof/Machine/TileAlu.lean ====
section
/-!
DEFINITION. The M slot (05 R168 to R177): results of Table 5-3 lane by lane, with the residue behaviour of 08 R282.
-/
namespace Sys2Proof.Machine


/-! ## One lane (05 Table 5-3) -/

def mulLane (a b : Lane) : AccOut :=
  derivedAcc (BitVec.ofInt 80 (a.data.toInt * b.data.toInt)) (resSum (rI a.res * rI b.res))
    (laneOk a && laneOk b) (laneTally a || laneTally b)

/-- `MAC` (`neg` false) and `MSU` (`neg` true) onto an accumulator lane. -/
def macLane (neg : Bool) (c : AccLane) (a b : Lane) : AccOut :=
  let p := a.data.toInt * b.data.toInt
  let r := rI a.res * rI b.res
  macLike (if neg then c.data.toInt - p else c.data.toInt + p) (if neg then rI c.res - r else rI c.res + r)
    (laneOk a && laneOk b && accOk c) (laneTally a || laneTally b || accTally c)

def addLane (neg sat : Bool) (a b : Lane) : LaneOut :=
  addLike (if neg then a.data.toInt - b.data.toInt else a.data.toInt + b.data.toInt)
    (if neg then rI a.res - rI b.res else rI a.res + rI b.res) sat (laneOk a && laneOk b)
    (laneTally a || laneTally b)

/-- A result that takes one of the source lanes with its residue, after both have been checked. -/
def pickLane (w : Lane) (srcOk srcTally : Bool) : LaneOut :=
  if srcOk then ⟨w, false, false⟩ else ⟨poisonLane w.data, srcTally, false⟩

def minLane (a b : Lane) : LaneOut :=
  pickLane (if a.data.toInt ≤ b.data.toInt then a else b) (laneOk a && laneOk b) (laneTally a || laneTally b)
def maxLane (a b : Lane) : LaneOut :=
  pickLane (if b.data.toInt ≤ a.data.toInt then a else b) (laneOk a && laneOk b) (laneTally a || laneTally b)

def absLane (a : Lane) : LaneOut :=
  if 0 ≤ a.data.toInt then pickLane a (laneOk a) (laneTally a)
  else addLike (-a.data.toInt) (-rI a.res) true (laneOk a) (laneTally a)

/-- `SEL` checks the selected lane alone (05 R175). -/
def selLane (p : Bool) (a b : Lane) : LaneOut :=
  let w := if p then a else b
  pickLane w (laneOk w) (laneTally w)

/-- min(max(a, b), c) (05 Table 5-3). -/
def clipLane (a b c : Lane) : LaneOut :=
  let x := if b.data.toInt ≤ a.data.toInt then a else b
  let w := if x.data.toInt ≤ c.data.toInt then x else c
  pickLane w (laneOk a && laneOk b && laneOk c) (laneTally a || laneTally b || laneTally c)

def genLane (f : Int → Int) (a : Lane) : LaneOut :=
  generated (BitVec.ofInt 32 (f a.data.toInt)) (laneOk a) (laneTally a)

def condHolds (c : Cond) (a b : Int) : Bool :=
  match c with
  | .eq => decide (a = b)
  | .ne => decide (a ≠ b)
  | .lt => decide (a < b)
  | .le => decide (a ≤ b)
  | .gt => decide (b < a)
  | .ge => decide (b ≤ a)

def combine (c : Comb) (old t : Bool) : Bool :=
  match c with
  | .set => t
  | .and => old && t
  | .or => old || t

/-! ## Vectors -/

def outVec (q : Quad LaneOut) : Vec := q.map (·.lane)
def outTally (q : Quad LaneOut) : Nat := (q.toList.filter (·.tally)).length
def outSat (q : Quad LaneOut) : Nat := (q.toList.filter (·.sat)).length
def accVec (q : Quad AccOut) : Acc := q.map (·.lane)
def accTallies (q : Quad AccOut) : Nat := (q.toList.filter (·.tally)).length

/-- The second factor: its own lane, or the broadcast lane (05 Table 5-3). -/
def factorB (f : MulF) (b : Vec) (i : Fin 4) : Lane := if f.bb then b.get f.bl else b.get i

/-- A V result of an M-slot operation issues: tally faults and saturations count at issue. -/
def issueV (s : State) (m : RealmId) (k : Nat) (d : VReg) (lat : Nat) (q : Quad LaneOut) : State :=
  let s := s.modTile m k (fun x => x.send .m lat (.v (physV x.regs.rot d) 0xF (outVec q)))
  saturate (tallyTile s m k (outTally q)) m k (outSat q)

def issueAcc (s : State) (m : RealmId) (k : Nat) (d : Fin 8) (q : Quad AccOut) : State :=
  let s := s.modTile m k (fun x => x.send .m 3 (.acc d (accVec q)))
  tallyTile s m k (accTallies q)

/-- A unary V operation of the M slot. -/
def unaryOp (e : TEv) (f : UnF) (lat : Nat) (g : Lane → LaneOut) (s : State) : Result :=
  tileOp e .m s (fun s => issueV s e.m e.k f.d lat ((srcV (s.tile e.m e.k).regs f.a).map g))

/-- A binary V operation of the M slot. -/
def binaryOp (e : TEv) (d a b : VReg) (g : Lane → Lane → LaneOut) (s : State) : Result :=
  tileOp e .m s (fun s =>
    let r := (s.tile e.m e.k).regs
    issueV s e.m e.k d 3 ((srcV r a).imap (fun i x => g x ((srcV r b).get i))))

/-! ## The operations -/

def execMul (e : TEv) (f : MulF) (s : State) : Result :=
  tileOp e .m s (fun s =>
    let r := (s.tile e.m e.k).regs
    issueAcc s e.m e.k f.d ((srcV r f.a).imap (fun i x => mulLane x (factorB f (srcV r f.b) i))))

/-- The accumulation of `MAC` and `MSU` onto the value the accumulator will hold (04 R144). -/
def accumulate (e : TEv) (f : MulF) (neg : Bool) (s : State) : Result :=
  tileOp e .m s (fun s =>
    let x := s.tile e.m e.k
    let old := accAhead x f.d
    issueAcc s e.m e.k f.d
      ((srcV x.regs f.a).imap (fun i a => macLane neg (old.get i) a (factorB f (srcV x.regs f.b) i))))

def execMac (e : TEv) (f : MulF) (s : State) : Result := accumulate e f false s
def execMsu (e : TEv) (f : MulF) (s : State) : Result := accumulate e f true s
def execAdd (e : TEv) (f : AddF) (s : State) : Result := binaryOp e f.d f.a f.b (addLane false f.sat) s
def execSub (e : TEv) (f : AddF) (s : State) : Result := binaryOp e f.d f.a f.b (addLane true f.sat) s
def execMin (e : TEv) (f : BinF) (s : State) : Result := binaryOp e f.d f.a f.b minLane s
def execMax (e : TEv) (f : BinF) (s : State) : Result := binaryOp e f.d f.a f.b maxLane s
def execAbs (e : TEv) (f : UnF) (s : State) : Result := unaryOp e f 3 absLane s

def execSel (e : TEv) (f : SelF) (s : State) : Result :=
  tileOp e .m s (fun s =>
    let r := (s.tile e.m e.k).regs
    issueV s e.m e.k f.d 3
      ((srcV r f.a).imap (fun i x => selLane ((rdP r f.p).getLsbD i.val) x ((srcV r f.b).get i))))

def execClip (e : TEv) (f : ClipF) (s : State) : Result :=
  tileOp e .m s (fun s =>
    let r := (s.tile e.m e.k).regs
    issueV s e.m e.k f.d 3
      ((srcV r f.a).imap (fun i x => clipLane x ((srcV r f.b).get i) ((srcV r f.c).get i))))

/-- The bit that `CMP` writes for lane i: 0 where a source fails or is poisoned (05 R177). -/
def cmpBit (f : CmpF) (r : Regs) (i : Fin 4) : Bool :=
  let a := (srcV r f.a).get i
  let b := (srcV r f.b).get i
  laneOk a && laneOk b
    && combine f.comb ((rdP r f.p).getLsbD i.val) (condHolds f.cond a.data.toInt b.data.toInt)

def cmpWord (f : CmpF) (r : Regs) : BitVec 4 :=
  BitVec.ofNat 4 ((cmpBit f r 0).toNat + 2 * (cmpBit f r 1).toNat + 4 * (cmpBit f r 2).toNat
    + 8 * (cmpBit f r 3).toNat)

/-- Lanes of a `CMP` whose source is poisoned or fails (05 R177), and those whose failure is a tally fault. -/
def cmpPoison (f : CmpF) (r : Regs) : Nat :=
  (([0, 1, 2, 3] : List (Fin 4)).filter
    (fun i => !(laneOk ((srcV r f.a).get i) && laneOk ((srcV r f.b).get i)))).length
def cmpTally (f : CmpF) (r : Regs) : Nat :=
  (([0, 1, 2, 3] : List (Fin 4)).filter
    (fun i => laneTally ((srcV r f.a).get i) || laneTally ((srcV r f.b).get i))).length

def execCmp (e : TEv) (f : CmpF) (s : State) : Result :=
  tileOp e .m s (fun s =>
    let r := (s.tile e.m e.k).regs
    let s := s.modTile e.m e.k (fun x => x.send .m 3 (.pred f.p (cmpWord f r)))
    let n := cmpPoison f r
    let s := if n = 0 then s else s.bump e.m (o16_POISON_COMPARE + 16 * e.k.val) n
    tallyTile s e.m e.k (cmpTally f r))

def execLog2 (e : TEv) (f : UnF) (s : State) : Result := unaryOp e f 4 (genLane log2Word) s
def execExp2 (e : TEv) (f : UnF) (s : State) : Result := unaryOp e f 4 (genLane exp2Word) s
def execRcp (e : TEv) (f : UnF) (s : State) : Result := unaryOp e f 4 (genLane rcpWord) s

end Sys2Proof.Machine
end

