-- ==== Sys2Proof/Machine/TileMove.lean ====
section
/-!
DEFINITION. The moves of the S slot (04 R126 to R130, R161 to R163; 05 R180 to R185).
MARKED CHOICES of this file (DESIGN CHOICE, DEDUCED or PRESUMED): log entry 11.
-/
namespace Sys2Proof.Machine

/-- One lane of `MOVA` (04 R161; 08 R283). -/
def movaLane (w : BitVec 16) (a : AccLane) : LaneOut :=
  convert a.data.toInt a.res.toNat (effShift w) (sclSat w) (accOk a) (accTally a)

/-- One lane of `MOVV.S` (04 R162): the conversion of D × 2^31, whose residue is that of D rotated left by 7 bits. -/
def movvLane (w : BitVec 16) (l : Lane) : LaneOut :=
  convert (l.data.toInt * 2147483648) (resRotR l.res.toNat 1) (effShift w) (sclSat w) (laneOk l) (laneTally l)

/-- Lanes of a mask. -/
def maskCount (mask : BitVec 4) (p : Fin 4 → Bool) : Nat :=
  (([0, 1, 2, 3] : List (Fin 4)).filter (fun i => mask.getLsbD i.val && p i)).length

def execMova (e : TEv) (f : MovaF) (s : State) : Result :=
  tileOp e .s s (fun s =>
    let r := (s.tile e.m e.k).regs
    let q := (rdAcc r f.acc).map (movaLane (rdScl r f.scl))
    let s := s.modTile e.m e.k (fun x => x.send .s 2 (.v (physV x.regs.rot f.d) f.wmask (outVec q)))
    let s := tallyTile s e.m e.k (maskCount f.wmask (fun i => (q.get i).tally))
    saturate s e.m e.k (maskCount f.wmask (fun i => (q.get i).sat)))

def execMovv (e : TEv) (f : UnF) (s : State) : Result :=
  tileOp e .s s (fun s =>
    s.modTile e.m e.k (fun x => x.send .s 1 (.v (physV x.regs.rot f.d) 0xF (srcV x.regs f.a))))

def execMovvS (e : TEv) (f : MovvSF) (s : State) : Result :=
  tileOp e .s s (fun s =>
    let r := (s.tile e.m e.k).regs
    let q := (srcV r f.a).map (movvLane (rdScl r f.scl))
    let s := s.modTile e.m e.k (fun x => x.send .s 2 (.v (physV x.regs.rot f.d) 0xF (outVec q)))
    saturate (tallyTile s e.m e.k (outTally q)) e.m e.k (outSat q))

/-- The lanes that `MOVS.R` delivers, with generated residues; a lane of an accumulator that fails its check gives a
poisoned lane (05 R183; 08 R280). -/
def specLanes (r : Regs) (q : Spec) : Quad LaneOut :=
  (specRead r q).imap (fun i w =>
    match q with
    | .acc n _ => generated w (accOk ((rdAcc r n).get i)) (accTally ((rdAcc r n).get i))
    | _ => ⟨mkLane w, false, false⟩)

def execMovsR (e : TEv) (f : MovsF) (s : State) : Result :=
  tileOp e .s s (fun s =>
    match specOf f.code with
    | none => illegalSlot s e.m e.k
    | some q =>
      let l := specLanes (s.tile e.m e.k).regs q
      let s := s.modTile e.m e.k (fun x => x.send .s 2 (.v (physV x.regs.rot f.v) 0xF (outVec l)))
      tallyTile s e.m e.k (outTally l))

/-- The lanes that `MOVS.W` takes: 0 to a part of an accumulator for a lane that fails, 0 to the whole register
elsewhere (04 R128; 05 R184). -/
def writeLanes (v : Vec) (q : Spec) : Quad (BitVec 32) :=
  let ok (i : Fin 4) : Bool := !specUses q i || laneOk (v.get i)
  match q with
  | .acc _ _ => v.imap (fun i l => if ok i then l.data else 0)
  | _ => if ok 0 && ok 1 && ok 2 && ok 3 then v.map (·.data) else Quad.all 0

/-- `MOVS.W`. MODEL'S CHOICE (log entry 11): a write to `STEP` or `EPOCH` is discarded, and a lane of it that fails its check
still counts as a tally fault (04 R127, R128). -/
def execMovsW (e : TEv) (f : MovsF) (s : State) : Result :=
  tileOp e .s s (fun s =>
    match specOf f.code with
    | none => illegalSlot s e.m e.k
    | some q =>
      let v := srcV (s.tile e.m e.k).regs f.v
      let s := match specWrite q (writeLanes v q) with
        | some d => s.modTile e.m e.k (fun x => x.send .s 2 d)
        | none => s
      tallyTile s e.m e.k (maskCount 0xF (fun i => specUses q i && laneTally (v.get i))))

end Sys2Proof.Machine
end

