-- ==== Sys2Proof/Machine/TileCtl.lean ====
section
/-!
DEFINITION. `NOP` and the C slot (05 R166, R186 to R200; 04 R149 to R154; 03 R80, R81, R89 to R92), the end of a step, and
the release of a barrier. The command of the C slot comes after the word's other slots; `BAR`, `YIELD` and `HALT` end
their step (log entry 11).
MARKED CHOICES of this file (DESIGN CHOICE, DEDUCED or PRESUMED): log entry 11.
-/
namespace Sys2Proof.Machine

/-- Execute as `NOP` and count (05 R200), as an effect of an operation. -/
def nopCounted (e : TEv) (s : State) : State := illegalSlot s e.m e.k

/-- Whether the bits of a slot are a legal word of that slot (05 R168 to R193), `NOP` among them. -/
def slotLegal (sl : Slot) (bits : BitVec 32) : Bool :=
  match sl with
  | .m => (decodeM bits).isSome
  | .x => (decodeX (bits.setWidth 24)).isSome
  | .y => (decodeY (bits.setWidth 24)).isSome
  | .s => (decodeS (bits.setWidth 24)).isSome
  | .c => (decodeC (bits.setWidth 24)).isSome

/-- `NOP`: issues nothing; a slot that presents a condition of Table 5-9 executes as this and is counted. -/
def execNop (e : TEv) (slot : Slot) (bits : BitVec 32) (s : State) : Result :=
  let s := s.at e.t
  if ctxRuns (s.tile e.m e.k).ctx then
    let s := openStep s e.m e.k
    if (s.tile e.m e.k).dead || slotLegal slot bits || (s.tile e.m e.k).used.contains slot then .next s else .next (nopCounted e s)
  else .next s

/-! ## Loops -/

def loopFree (r : Regs) : Option (Fin 2) :=
  if lcActive r.lc0 = false then some 0 else if lcActive r.lc1 = false then some 1 else none

/-- The innermost active loop (05 R188). -/
def loopInner (r : Regs) : Option (Fin 2) :=
  if lcActive r.lc1 then some 1 else if lcActive r.lc0 then some 0 else none

def execLoop (e : TEv) (f : LoopF) (s : State) : Result :=
  tileOp e .c s (fun s =>
    let x := s.tile e.m e.k
    match loopFree x.regs with
    | none => nopCounted e s
    | some i =>
      s.modTile e.m e.k (fun x =>
        x.send .c 1 (.lc i (lcWord true f.rot (lcEnd (lcGet x.regs i)) (x.pc + 1) (f.n1.toNat + 1)))))

/-- The count of a register `LOOP` (05 R189). -/
def loopCount (l : Lane) : Nat :=
  if laneOk l then
    if l.data.toInt ≤ 0 then 0 else if l.data.toInt > 65536 then 65536 else l.data.toNat
  else 0

def vreg (n : Fin 16) : VReg := ⟨n.val, by omega⟩

/-- Register `LOOP`. With count 0 the loop register takes END and stays inactive; MODEL'S CHOICE (log entry 11): its START,
COUNT and ROTATE stay as they are. -/
def execLoopRegister (e : TEv) (f : LoopRF) (s : State) : Result :=
  tileOp e .c s (fun s =>
    let x := s.tile e.m e.k
    match loopFree x.regs with
    | none => nopCounted e s
    | some i =>
      let l := (srcV x.regs (vreg f.v)).get f.lane
      let s := tallyTile s e.m e.k (if laneTally l then 1 else 0)
      let n := loopCount l
      s.modTile e.m e.k (fun x =>
        if n = 0 then
          let w := lcGet x.regs i
          { x.send .c 1 (.lc i (lcWord false (lcRotate w) f.endA.toNat (lcStart w) (lcCount w))) with nextPc := f.endA.toNat + 1 }
        else x.send .c 1 (.lc i (lcWord true f.rot f.endA.toNat (x.pc + 1) n))))

/-- `ENDL` of the loop register `i`: branch back or exit, `ROT` by one where the loop rotates (04 R150, R154). -/
def endLoop (x : Tile) (i : Fin 2) : Tile :=
  let w := lcGet x.regs i
  let x := if lcRotate w then x.send .c 1 (.rot (x.regs.rot + 1)) else x
  if lcCount w > 1 then
    { x.send .c 1 (.lc i (lcWord true (lcRotate w) x.pc (lcStart w) (lcCount w - 1))) with nextPc := lcStart w }
  else
    { x.send .c 1 (.lc i (lcWord false (lcRotate w) x.pc (lcStart w) (lcCount w))) with nextPc := x.pc + 1 }

def execEndl (e : TEv) (s : State) : Result :=
  tileOp e .c s (fun s =>
    match loopInner (s.tile e.m e.k).regs with
    | none => nopCounted e s
    | some i => s.modTile e.m e.k (fun x => endLoop x i))

/-! ## Address and scale registers -/

def execAmod (e : TEv) (f : AmodF) (s : State) : Result :=
  tileOp e .c s (fun s =>
    s.modTile e.m e.k (fun x =>
      let o := if f.oe then (rdOffs x.regs f.side f.o).toInt else f.imm.toInt
      x.send .c 1 (.addr f.side f.a
        (nextAddr (rdAddr x.regs f.side f.a) o (modLen x.regs f.side f.me f.md)))))

/-- The bits that a `SETSCL` writes (05 R191). -/
def setsclMask (mode : BitVec 2) (expOk : Bool) : BitVec 16 :=
  (if mode.getLsbD 0 && expOk then 0x0F00 else 0) ||| (if mode.getLsbD 1 then 0x00FF else 0)

def execSetscl (e : TEv) (f : SetsclF) (s : State) : Result :=
  tileOp e .c s (fun s =>
    let x := s.tile e.m e.k
    let l := (srcV x.regs (vreg f.xv)).get f.xl
    let fromLane := f.xsrc && f.mode.getLsbD 0
    let ok := !fromLane || laneOk l
    let v := if f.xsrc then l.data.toNat else f.xv.val
    let w := BitVec.ofNat 16 ((if v > 10 then 10 else v) * 256 + f.link.toNat * 64 + f.sat.toNat * 32 + f.shift.toNat)
    let s := tallyTile s e.m e.k (if fromLane && laneTally l then 1 else 0)
    s.modTile e.m e.k (fun x => x.send .c 1 (.scl f.n (setsclMask f.mode ok) w)))

/-! ## Barriers -/

/-- Barriers below `b` in whose mask the tile appears, as bits. -/
def barsBefore (img : List Byte) (k b : Nat) : Nat :=
  (List.range b).foldl (fun a i => if maskHas (barMask img i) k then a + 2 ^ i else a) 0

/-- `BAR` b is in its place: a foreground range, no loop, the tile in b's mask, every earlier barrier of the tile joined
and no later one (03 R80; 05 R200). -/
def barLegal (img : List Byte) (x : Tile) (k : Nat) (b : Fin 8) : Bool :=
  ctxFore x.ctx && !lcActive x.regs.lc0 && !lcActive x.regs.lc1 && maskHas (barMask img b.val) k
    && decide (x.joined.toNat = barsBefore img k b.val)

def execBar (e : TEv) (b : Fin 8) (s : State) : Result :=
  tileOp e .c s (fun s =>
    let x := s.tile e.m e.k
    if barLegal (tileImg (s.frame e.m) x) x e.k b then
      (endStep s e.m e.k).modTile e.m e.k (fun x =>
        match x.ctx with
        | .fore sw => { x with ctx := .barrier b sw, joined := x.joined ||| (BitVec.ofNat 8 (2 ^ b.val)) }
        | _ => x)
    else nopCounted e s)

/-- The tile waits at the barrier of the image in program bank `n`. -/
def waitsAt (x : Tile) (n : Fin 2) (b : Fin 8) : Bool :=
  x.bank == n && (match x.ctx with
    | .barrier c _ => c == b
    | _ => false)

/-- Every participant of the barrier of the image in bank `n` waits at it, its stores written (03 R81). -/
def barReady (s : State) (m : RealmId) (n : Fin 2) (mask : Nat) (b : Fin 8) : Bool :=
  decide (mask ≠ 0) && (List.range 16).all (fun k => !maskHas mask k || waitsAt (s.tile m k) n b)

def releaseTile (x : Tile) : Tile :=
  match x.ctx with
  | .barrier _ sw => { x with ctx := .fore sw }
  | _ => x

/-- The participants of a barrier of one image go on. -/
def releaseBank (s : State) (m : RealmId) (n : Fin 2) (b : Fin 8) : State :=
  let mask := barMask (bankImg (s.frame m) n) b.val
  if barReady s m n mask b then forN 16 (fun k s => if maskHas mask k then s.modTile m k releaseTile else s) s else s

/-- A barrier is that of the image its tiles run: a tile that is late at a SWAP waits with those of the outgoing image
(02 R64; 03 R81). -/
def execBarrierRelease (e : Ev) (b : Fin 8) (s : State) : Result :=
  let s := s.at e.t
  .next (releaseBank (releaseBank s e.m 0 b) e.m 1 b)

/-! ## YIELD, HALT and the end of a step -/

/-- A `HALT` or `YIELD` word: another slot that issued counts once; operations in flight complete; the step ends
(05 R200). MODEL'S CHOICE (log entry 11): this count too raises the event and the interrupt; a slot of the word that is itself
illegal has counted as a slot, and does not make the word count. -/
def endWord (e : TEv) (s : State) : State :=
  let s := if ((s.tile e.m e.k).used.filter (fun u => u != .c)).isEmpty then s else illegalSlot s e.m e.k
  drain (endStep s e.m e.k) e.m e.k

/-- The turn of a slack task ends (03 R89): it goes on later from the next word. -/
def yieldTask (s : State) (m : RealmId) (k en : Nat) : State :=
  let tab := slackTable (tileImg (s.frame m) (s.tile m k)) k
  s.modTile m k (fun x =>
    let t := taskOf x en
    let x := setTask x en ⟨some x.pc, t.restoreDue, t.ended, t.job, false⟩
    pickSlack (turnPast x tab en) tab)

/-- The end of a restore routine: the task goes on where it was stopped (03 R92). -/
def endRestore (s : State) (m : RealmId) (k en : Nat) : State :=
  let tab := slackTable (tileImg (s.frame m) (s.tile m k)) k
  s.modTile m k (fun x =>
    let t := taskOf x en
    runTask (setTask x en ⟨t.resume, false, t.ended, t.job, t.damaged⟩) tab en)

def execYield (e : TEv) (s : State) : Result :=
  tileOp e .c s (fun s =>
    match (s.tile e.m e.k).ctx with
    | .slack en => checkEnd (yieldTask (endWord e s) e.m e.k en) e.m e.k
    | .save _ => endSave (endWord e s) e.m e.k
    | .restore en => checkEnd (endRestore (endWord e s) e.m e.k en) e.m e.k
    | _ => nopCounted e s)

def execHalt (e : TEv) (s : State) : Result :=
  tileOp e .c s (fun s => checkEnd (haltTile (endWord e s) e.m e.k) e.m e.k)

/-- The end of a step of a running tile: the results due are written (04 R142). -/
def execOperationResult (e : TEv) (s : State) : Result :=
  let s := s.at e.t
  if ctxRuns (s.tile e.m e.k).ctx then
    .next (checkEnd (endStep (openStep s e.m e.k) e.m e.k) e.m e.k)
  else .next s

end Sys2Proof.Machine
end

