-- ==== Sys2Proof/Machine/Swap.lean ====
section
/-!
DEFINITION. SWAP (03 R86, R96, R101, R120 to R122; 06 R220, R231 to R238; 13 R461): arming, the check at frame F − 1,
taking effect and cancelling.
MARKED CHOICES of this file (DESIGN CHOICE, DEDUCED or PRESUMED): log entries 18 and 25.
-/
namespace Sys2Proof.Machine

def allOnes64 : Int := 18446744073709551615

/-- The image in the inactive bank. -/
def pendingImg (f : FrameSt) : List Byte := bankImg f (inactive f)

/-- Admission of the inactive bank at this moment (R85, R86). -/
def swapAdmitted (s : State) (m : RealmId) : Bool :=
  (admitCheck (pendingImg (s.frame m)) (s.onat m o12_T_ADM) (s.rate m)).isNone

/-- R101: the epoch of the running image with another placement. -/
def epochConflict (f : FrameSt) : Bool :=
  f.running && imgEpoch (pendingImg f) == imgEpoch (activeImg f) && imgPlacement (pendingImg f) != imgPlacement (activeImg f)

/-- The error of a SWAP command, in the order of 12 R426. -/
def swapError (s : State) (m : RealmId) (frame : Nat) : Option Nat :=
  let n := s.frameNo m
  if frame < n + 2 ∨ n + 16777216 < frame then some 0x16
  else if loadState s m ≠ 3 then some 0x1C
  else if epochConflict (s.frame m) then some 0x22
  else if !swapAdmitted s m then some 0x1D
  else if (s.frame m).armed.isSome then some 0x18
  else none

/-- The records of the incoming image are written when its start is two frames away (06 R204, R231). -/
def initIncoming (s : State) (m : RealmId) (n : Nat) : State :=
  match (s.frame m).armed with
  | some a => if a.frame = n + 2 then initImage s m (pendingImg (s.frame m)) a.frame a.xfLen a.xfShape else s
  | none => s

/-- The writes with a start frame from `frame` on are staged anew, in the image that serves them now: their slots are assigned
there (R231; 06 R218). -/
def restage (s : State) (m : RealmId) (frame : Nat) : State :=
  let s := s.modBil m (fun b => { b with effects := b.effects.map (fun e =>
    if frame ≤ e.frame ∧ e.rw = false then { e with tiles := [] } else e) })
  let s := s.modFrame m (fun f => { f with direct := f.direct.filter (fun d => decide (d.frame < frame)) })
  (s.realm m).bil.effects.foldl (fun s e =>
    if frame ≤ e.frame ∧ e.rw = false then holdFor s m e.key e.frame e.ramp e.p0 else s) s

/-- SWAP is armed; for a start two frames away the incoming image's records, and the writes of that frame, are staged at
once. -/
def swapArm (s : State) (m : RealmId) (frame : Nat) : State :=
  let a : Armed := ⟨frame, s.onat m o5F_XF_LENGTH, s.onat m o5F_XF_SHAPE⟩
  let s := (s.modFrame m (fun f => { f with armed := some a })).oput m o14_SWAP_ARMED (frame : Nat)
  let s := forN 16 (fun k s => s.modTile m k (fun x => { x with slotsNext := [], selsNext := [] })) s
  let s := initIncoming (restage s m frame) m (s.frameNo m)
  if frame = s.frameNo m + 2 then forN 16 (fun k s => stageTile s m k frame) s else s

/-- The armed SWAP is given up: writes that waited for the incoming image go to the running one. -/
def disarm (s : State) (m : RealmId) : State :=
  let f := (s.frame m).armed.elim 0 (·.frame)
  let was := (s.frame m).armed.isSome
  let s := (s.modFrame m (fun f => { f with armed := none })).oput m o14_SWAP_ARMED allOnes64
  if was then restage s m f else s

/-- A SWAP armed is cancelled with SWAP_REFUSED (R73, R86; 07 R263; 16 R549). -/
def refuseSwap (s : State) (m : RealmId) : State :=
  if (s.frame m).armed.isSome then ((disarm s m).irq m 9).raise m 0x1402 o14_SWAP_ARMED else s

/-- SWAP_CANCEL comes too late at or after the tick of frame F − 2 (R122). -/
def cancelLate (s : State) (m : RealmId) : Bool :=
  match (s.frame m).armed with
  | some a => decide (a.frame ≤ s.frameNo m + 2)
  | none => false

/-- Admission at the tick of frame F − 1 (R86). -/
def readmit (s : State) (m : RealmId) : State :=
  match (s.frame m).armed with
  | some a => if a.frame = s.frameNo m + 1 ∧ swapAdmitted s m = false then refuseSwap s m else s
  | none => s

/-! ## Taking effect -/

/-- The handover map holds for the running image at this tick (06 R235). -/
def handoverHolds (f : FrameSt) : Bool :=
  f.running && hasSec (pendingImg f) 0x000A 0xFF && predHash (pendingImg f) == imgPlacement (activeImg f)

/-- Predecessor epochs that TASK entries give (06 R238): incoming tile and TASK_ID to the outgoing epoch. -/
def taskPreds (inc out : List Byte) : Tbl Nat :=
  (handover inc).foldl (fun t h =>
    if h.kind = 3 then tput 0 t (h.dstTile * 65536 + h.dst % 65536) (imgEpoch out) else t) []

/-- The tile ends its slack task without the save routine (R96) and takes up the incoming image's slots. -/
def tileSwap (s : State) (m : RealmId) (k : Nat) : State :=
  let s := if ctxSlack (s.tile m k).ctx then drain s m k else s
  s.modTile m k (fun x =>
    { x with ctx := if ctxSlack x.ctx then .idle else x.ctx, opened := if ctxSlack x.ctx then false else x.opened,
             tasks := [], rotation := 0, slots := x.slotsNext, sels := x.selsNext, slotsNext := [], selsNext := [] })

/-- A stored value that the incoming image does not know is replaced. -/
def coerceObject (s : State) (m : RealmId) (img : List Byte) (k : Nat) : State :=
  let v := s.oget m k
  let w := coerced img k v
  if w = v then s else (s.oput m k w).raise m (if isSend k then 0x5F01 else 0x5F03) k

/-- Stored values that the incoming image does not know are replaced: the tap of every send, bound or not (R220), and the
selectors that it binds (13 R461). -/
def coerceObjects (s : State) (m : RealmId) (img : List Byte) : State :=
  let keys := dedup (((paramMap img).binds.filter (fun b => b.kind == 2)).map (·.key))
  let s := keys.foldl (fun s k => coerceObject s m img k) s
  forN 65536 (fun i s => coerceObject s m img (okey 0x60 i 3)) s

/-- An OUT vector reads zero until it is written under the new image (R77). -/
def zeroOuts (s : State) (m : RealmId) (img : List Byte) : State :=
  s.setMem m (((exchMap img).filter (fun x => x.cls == 1)).foldl (fun c x => zeroVecs c 0x80 x.vector (x.vector + 1)) (s.mem m))

/-- Channels without a previous word (08 R289). -/
def freshChans (t : Tbl Chan) : Tbl Chan :=
  let f : Chan → Chan := fun c => { c with prev := ⟨0, 0⟩, taken := ⟨0, 0⟩, repeated := false }
  (t.map (fun c => (c.1, f c.2))).filter (fun c => decide (c.2 ≠ Chan.reset))

/-- The image of the inactive bank starts at this tick. -/
def takeSwap (s : State) (m : RealmId) (a : Armed) : State :=
  let f := s.frame m
  let inc := pendingImg f
  let out := runImg f
  let hand := handoverHolds f
  let cold := f.running && !hand
  let b := inactive f
  let s := setBank s m f.active 0
  let s := setBank s m b 4
  let s := s.modFrame m (fun f =>
    { f with active := b, running := true, k := 0, armed := none, swapFrame := some (a.frame, f.tickAt), swapHand := hand,
             swapDone := false, keeperHalf := [], keeperPend := [], hrUntil := f.hrUntil,
             preds := if hand then taskPreds inc out else [],
             cold := if cold && decide (0 < a.xfLen) then some ⟨a.frame, a.xfLen, a.xfShape⟩ else none })
  let s := forN 16 (fun k s => tileSwap s m k) s
  let s := zeroOuts s m inc
  let s := s.modOut m (fun o => { o with chans := freshChans o.chans })
  let s := s.oput m o14_SWAP_ARMED allOnes64
  let s := s.oput m o14_ACTIVE_BANK (b.val : Nat)
  let s := s.oput m o14_RUNNING_EPOCH (imgEpoch inc : Nat)
  let s := s.oput m o14_RUNNING_IMAGE_ID (imgId inc : Nat)
  let s := s.oput m o14_CRITICAL_STEPS (imgCritical inc : Nat)
  let s := s.oput m o14_PENDING_CRITICAL_STEPS 0
  let s := forN 16 (fun k s => (s.oput m (o14_ADMIT_STEPS + 16 * k) ((timing inc k).aNormal : Nat)).oput m
    (o14_ADMIT_STEPS_SWAP + 16 * k) ((timing inc k).aSwap : Nat)) s
  let s := coerceObjects s m inc
  let s := if cold then (s.bump m o5F_RECALL_COLD_COUNT 1).raise m 0x5F02 o5F_RECALL_COLD_COUNT else s
  s.irq m 9

/-- At the tick of frame F all tiles take the other bank (R121). -/
def execSwapTakeEffect (e : Ev) (s : State) : Result :=
  let s := s.at e.t
  match (s.frame e.m).armed with
  | some a => .next (if a.frame = s.frameNo e.m ∧ loadState s e.m = 3 then takeSwap s e.m a else s)
  | none => .next s

/-- The objects that describe the running image and the pending one, when there is neither: their defaults (03 Table
3-11). -/
def noImageObjects (s : State) (m : RealmId) : State :=
  let s := (s.oput m o14_RUNNING_EPOCH 0).oput m o14_RUNNING_IMAGE_ID 0
  let s := ((s.oput m o14_CRITICAL_STEPS 0).oput m o14_ADMISSION_HEADROOM 0).oput m o14_PENDING_CRITICAL_STEPS 0
  forN 16 (fun k s => (s.oput m (o14_ADMIT_STEPS + 16 * k) 0).oput m (o14_ADMIT_STEPS_SWAP + 16 * k) 0) s

/-- The running image stops (07 R263): both banks EMPTY, no epoch, tiles idle (03 R78). -/
def stopImage (s : State) (m : RealmId) : State :=
  let st := loadState s m
  let s := if st = 1 ∨ st = 2 then abortLoad s m else s
  let s := refuseSwap s m
  let s := setBank (setBank s m 0 0) m 1 0
  let s := s.modFrame m (fun f => { f with running := false, swapFrame := none, cold := none, swapDone := true, direct := [], hrMoved := [] })
  let s := noImageObjects s m
  forN 16 (fun k s => s.modTile m k (fun x => { x with ctx := .idle, opened := false, flight := [] })) s

end Sys2Proof.Machine
end

