-- ==== Sys2Proof/Machine/Memory.lean ====
section
/-!
DEFINITION. Control of the memories (07 R256, R258 to R270; 08 R292, R293): scrubbing, built-in self-test, error
injection, deep bank power, and clearing of poisoned state. An error of a command is its code of 12 Table 12-7.
MARKED CHOICES of this file (DESIGN CHOICE, DEDUCED or PRESUMED): log entries 8, 27, 29 and 75.
-/
namespace Sys2Proof.Machine

/-! ## Scrubbing (R258, R259) -/

/-- Bank IDs of the realm, in order (07 Table 7-1). -/
def bankIds : List Nat := List.range 0x84

/-- Deep banks that are not ON are not scrubbed. -/
def scrubbed (r : Realm) (bank : Nat) : Bool :=
  if 0x40 ≤ bank ∧ bank < 0x80 then r.deepOn (bank - 0x40) else true

/-- The arrays that QUIET retains: coefficient regions, program memories, deep banks and the object store (Table 7-1). -/
def keptRanges : List VRange :=
  (List.range 16).map (fun k => ⟨0x10 + k, 4096, 8192⟩)
    ++ ((List.range 0x60).map (· + 0x20) ++ [0x83]).map (fun b => ⟨b, 0, bankVectors b⟩)

def lostRanges : List VRange :=
  (List.range 16).map (fun k => ⟨k, 0, 8192⟩) ++ (List.range 16).map (fun k => ⟨0x10 + k, 0, 4096⟩)
    ++ [0x80, 0x81, 0x82].map (fun b => ⟨b, 0, bankVectors b⟩)

/-- The ranges of a pass in their order: after a wake from QUIET the retained arrays come first. -/
def scrubRanges (kept : Bool) : List VRange :=
  if kept then keptRanges ++ lostRanges else bankIds.map (fun b => ⟨b, 0, bankVectors b⟩)

/-- The rest of the pass, from the range that holds the scrubber's place. -/
def scrubRest (x : MemSt) : List VRange :=
  (scrubRanges x.scrubKept).dropWhile (fun g =>
    !(g.bank == x.scrubBank && decide (g.lo ≤ x.scrubVec) && decide (x.scrubVec < g.hi)))

/-- The scrubber's next vector, and the ranges that follow its range; a bank that is not scrubbed gives way to the next one. -/
def scrubPlace (r : Realm) : (Nat × Nat) × List VRange :=
  let x := r.memory
  match (scrubRest x).dropWhile (fun g => !scrubbed r g.bank) with
  | g :: l => (if (scrubRest x).head? = some g then (x.scrubBank, x.scrubVec) else (g.bank, g.lo), g :: l)
  | [] => ((0, 0), scrubRanges false)

/-- The place after a vector: in its range, in the next range that is scrubbed, or `none` at the end of a pass. -/
def nextScrub (r : Realm) (v : Nat) (l : List VRange) : Option (Nat × Nat) :=
  match l with
  | [] => none
  | g :: l =>
    if v + 1 < g.hi then some (g.bank, v + 1) else (l.find? (fun g => scrubbed r g.bank)).map (fun g => (g.bank, g.lo))

/-- One scrub read, with the rewrite of a vector that has one symbol in error; Keeper ROM is never written. -/
def execScrubRead (e : Ev) (s : State) : Result :=
  let s := s.at e.t
  let ((b, v), l) := scrubPlace (s.realm e.m)
  let s := portAccess s e.m b v .read
  let o := (getVec (s.mem e.m) b v).2
  let (w, s) := s.rdVec e.m b v
  let s := match o with
    | .corrected _ _ => if b = 0x82 then s else s.wrVec e.m b v w
    | _ => s
  match nextScrub (s.realm e.m) v l with
  | some (b, v) => .next (s.modMemory e.m (fun x => { x with scrubBank := b, scrubVec := v }))
  | none =>
    let s := s.modMemory e.m (fun x => { x with scrubBank := 0, scrubVec := 0, scrubKept := false })
    .next ((s.bump e.m o18_SCRUB_PASSES 1).irq e.m 22)

/-- After a wake from QUIET the next pass begins with the retained arrays. -/
def scrubKeptFirst (s : State) (m : RealmId) : State :=
  s.modMemory m (fun x => { x with scrubBank := 0x10, scrubVec := 4096, scrubKept := true })

/-! ## Deep banks (R266 to R268) -/

/-- The image sections that the device has received: the whole image of an ADMITTED or ACTIVE bank, else those of the
stream (R268). -/
def receivedBanks (i : List Byte) : List Nat :=
  if i.length < 0x80 + 16 * imgCount i then []
  else ((secTable i).filter (fun sc => sc.type == 8 || decide (sc.off + sc.len ≤ i.length))).flatMap (sectionBanks i)

def bankUsed (f : FrameSt) (b : Nat) : Bool :=
  let of := fun n : Fin 2 =>
    if bankSt f n = 3 ∨ bankSt f n = 4 then (receivedBanks (bankImg f n)).contains b
    else if bankSt f n = 1 ∨ bankSt f n = 2 then (receivedBanks f.stream).contains b
    else false
  of 0 || of 1

/-- A write of POWER_STATE (R268; 07 Table 7-4; 11 R403). -/
def powerStateErr (s : State) (m : RealmId) (bank v : Nat) : Option Nat :=
  if bank < 0x40 ∨ 0x80 ≤ bank ∨ 2 < v then some 0x16
  else if netBank s m (bank - 0x40) then some 0x18
  else if v ≠ 0 ∧ (bankUsed (s.frame m) (bank - 0x40) ∨ s.onat m o18_MBIST_STATE = 1) then some 0x18
  else none

/-- Time that a change of power takes (07 Table 7-3). -/
def powerTime (st v : Nat) : Time :=
  if st = v then 0 else if st = 0 then us 2 else if v = 0 then (if st = 2 then us 120 else us 10) else us 2

/-- A bank leaves ON at once; the change itself ends with DEEP_BANK_TRANSITION. One from OFF to RETAIN goes to ON first. -/
def powerStateDo (s : State) (m : RealmId) (b v : Nat) : State :=
  if v = 0 then deepOnNow s m b
  else
    let d := (s.realm m).deepPow b
    if d.st = v ∧ d.target = none then s
    else
      let y : DeepPow := if d.st = 0 then ⟨v, some (v, s.now + powerTime 0 v), false⟩
        else if d.st = 2 ∧ v = 1 then ⟨2, some (0, s.now + us 120), true⟩
        else ⟨d.st, some (v, s.now + powerTime d.st v), false⟩
      s.modMemory m (fun x => { x with deep := tput DeepPow.reset x.deep b y })

/-- A bank that loses its contents holds zero before its next access (R270). -/
def dropDeep (s : State) (m : RealmId) (b : Nat) : State := s.setMem m (zeroVecs (s.mem m) (0x40 + b) 0 16384)

/-! ## Built-in self-test (R262 to R264) -/

def rxEnabled (s : State) (m : RealmId) : Bool := (List.range 64).any (fun k => s.onat m (o26_ENABLE + 16 * k) == 1)

def mbistErr (s : State) (m : RealmId) (mask : Nat) : Option Nat :=
  if mask = 0 ∨ 64 ≤ mask then some 0x16
  else if (s.realm m).mode ≠ .maintenance then some 0x17
  else if s.onat m o18_MBIST_STATE = 1 then some 0x18
  else if mask / 16 % 2 = 1 ∧ rxEnabled s m then some 0x18
  else none

/-- The banks of the selected classes. -/
def mbistBanks (mask : Nat) : List Nat :=
  let cls := fun (bit base n : Nat) => if mask / 2 ^ bit % 2 = 1 then (List.range n).map (· + base) else []
  cls 0 0 16 ++ cls 1 0x10 16 ++ cls 2 0x20 16 ++ cls 3 0x30 16 ++ cls 4 0x40 64 ++ cls 5 0x80 1

def mbistDo (s : State) (m : RealmId) (mask : Nat) : State :=
  let s := stopImage s m
  let s := s.modMemory m (fun x =>
    { x with mbistMask := mask, mbistStart := s.now, before := x.deep,
             deep := if mask / 16 % 2 = 1 then (List.range 64).foldl (fun d b => tput DeepPow.reset d b ⟨0, none, false⟩) x.deep else x.deep })
  let s := if mask / 16 % 2 = 1 then
      (List.range 64).foldl (fun s b => s.oput m (o18_POWER_STATE + 16 * (0x40 + b)) 0) s else s
  s.oput m o18_MBIST_STATE 1

/-- The self-test ends: `fails` gives the failing vectors of the banks that have any. -/
def execMbistDone (e : Ev) (fails : List (Nat × Nat)) (s : State) : Result :=
  let s := s.at e.t
  if s.onat e.m o18_MBIST_STATE = 1 then
    let mask := (s.realm e.m).memory.mbistMask
    let s := (mbistBanks mask).foldl (fun s b =>
      let n := (fails.filter (fun f => f.1 == b)).foldl (fun a f => a + f.2) 0
      let s := s.setMem e.m (zeroVecs (s.mem e.m) b 0 (bankVectors b))
      (s.oput e.m (o18_MBIST_RESULT + 16 * b) (if n = 0 then 1 else 2)).oput e.m (o18_MBIST_FAILS + 16 * b)
        (Nat.min n 0xFFFFFFFF : Nat)) s
    let s := if mask / 16 % 2 = 1 then
        (List.range 64).foldl (fun s b =>
          let d := tget DeepPow.reset (s.realm e.m).memory.before b
          (s.modMemory e.m (fun x => { x with deep := tput DeepPow.reset x.deep b d })).oput e.m
            (o18_POWER_STATE + 16 * (0x40 + b)) (d.st : Nat)) s
      else s
    .next ((s.oput e.m o18_MBIST_STATE 2).irq e.m 24)
  else .next s

/-! ## Error injection, counters (R256, R265) -/

def errInjectErr (s : State) (m : RealmId) (bank vec syms : Nat) : Option Nat :=
  if syms = 0 ∨ 2 ^ 23 ≤ syms ∨ bankVectors bank ≤ vec ∨ bank = 0x81 ∨ bank = 0x82
      ∨ (0x40 ≤ bank ∧ bank < 0x80 ∧ (s.realm m).deepOn (bank - 0x40) = false) then some 0x16
  else if (s.realm m).mode ≠ .maintenance then some 0x17
  else none

def errInjectDo (s : State) (m : RealmId) (bank vec syms : Nat) : State :=
  s.setMem m (forN 23 (fun j c =>
    if syms / 2 ^ j % 2 = 1 then wrSym c (symAddr bank vec j) (rdSym c (symAddr bank vec j) ^^^ 1) else c) (s.mem m))

def countClearDo (s : State) (m : RealmId) : State :=
  bankIds.foldl (fun s b =>
    ((s.oput m (o18_CE_COUNT + 16 * b) 0).oput m (o18_UE_COUNT + 16 * b) 0).oput m (o18_LAST_ERROR + 16 * b) 0) s

/-! ## Clearing poisoned state (08 R292, R293) -/

/-- POISON_CLEAR starts; while no image runs it is done at once. -/
def poisonClearDo (s : State) (m : RealmId) : State :=
  if (s.frame m).running then
    (s.modMemory m (fun x => { x with clearing := some s.now })).oput m o1A_POISON_CLEAR_STATE 1
  else ((s.oput m o1A_POISON_CLEAR_STATE 2).oput m o1A_POISON_CLEARED 0).raise m 0x1A04 o1A_POISON_CLEARED

def poisonClearErr (s : State) (m : RealmId) : Option Nat :=
  if (s.realm m).memory.clearing.isSome then some 0x18 else none

/-- One vector: read over the bus, the lanes returned with the POISON indication written as zero. -/
def clearVec (s : State) (m : RealmId) (bank vec n : Nat) : State × Nat :=
  let ((_, p), s) := busLoad s m bank vec
  if p = 0 then (s, n)
  else
    let c := (List.range 4).foldl (fun a i => if p.getLsbD i then a + 1 else a) 0
    (busStore s m 0 bank vec (Quad.all 0) (laneBe p), n + c)

/-- The vectors of a range from `lo`, in turn. -/
def clearVecs : Nat → State → RealmId → Nat → Nat → Nat → State × Nat
  | 0, s, _, _, _, n => (s, n)
  | k + 1, s, m, bank, lo, n =>
    let (s, n) := clearVec s m bank lo n
    clearVecs k s m bank (lo + 1) n

/-- Ranges of a deep bank that is not ON are skipped. -/
def clearRange (m : RealmId) (a : State × Nat) (r : VRange) : State × Nat :=
  if 0x40 ≤ r.bank ∧ r.bank < 0x80 ∧ (a.1.realm m).deepOn (r.bank - 0x40) = false then a
  else clearVecs (r.hi - r.lo) a.1 m r.bank r.lo a.2

/-- The Keeper's pass ends; a bank on its way to ON holds it back. -/
def execPoisonClearDone (e : Ev) (s : State) : Result :=
  let s := s.at e.t
  let rs := footRanges (runImg (s.frame e.m))
  if (s.realm e.m).memory.clearing.isNone
      || rs.any (fun r => decide (0x40 ≤ r.bank ∧ r.bank < 0x80) && (s.realm e.m).deepComing (r.bank - 0x40)) then .next s
  else
    let (s, n) := rs.foldl (clearRange e.m) (s, 0)
    let s := s.modMemory e.m (fun x => { x with clearing := none })
    .next (((s.oput e.m o1A_POISON_CLEAR_STATE 2).oput e.m o1A_POISON_CLEARED (n : Nat)).raise e.m 0x1A04 o1A_POISON_CLEARED)

/-! ## Initialisation (R270) -/

/-- Program memories and coefficient regions at realm reset. -/
def zeroRetained (s : State) (m : RealmId) : State :=
  forN 16 (fun k s =>
    let c := zeroVecs (s.mem m) (0x20 + k) 0 8192
    let c := zeroVecs c (0x30 + k) 0 8192
    s.setMem m (zeroVecs c (0x10 + k) 4096 8192)) s

/-- Tile X, the lower Y arrays and exchange memory at entry to BRING-UP; Keeper RAM before the Keeper starts. -/
def zeroLost (s : State) (m : RealmId) : State :=
  let s := forN 16 (fun k s =>
    let c := zeroVecs (s.mem m) k 0 8192
    s.setMem m (zeroVecs c (0x10 + k) 0 4096)) s
  s.setMem m (zeroVecs (s.mem m) 0x80 0 32768)

/-- The object store, at a power-up from OFF or DEEP STANDBY. -/
def zeroStore (s : State) (m : RealmId) : State := s.setMem m (zeroVecs (s.mem m) 0x83 0 65536)

def zeroKeeper (s : State) (m : RealmId) : State := s.setMem m (zeroVecs (s.mem m) 0x81 0 32768)

end Sys2Proof.Machine
end

