-- ==== Sys2Proof/Machine/Out.lean ====
section
/-!
DEFINITION. Output channels (02 R61, R67 to R69; 06 R235; 08 R284 to R296): what silences an output, the 2 ms fades,
concealment and escalation of channel faults, tally mutes, entry to SAFE and the transition it starts.
MARKED CHOICES of this file (DESIGN CHOICE, DEDUCED or PRESUMED): log entries 5, 27 and 74.
-/
namespace Sys2Proof.Machine

/-! ## Gates -/

def fadePs : Time := ms 2
def zeroLane : Lane := ⟨0, 0⟩

/-- The tick that ends the current frame. -/
def nextTick (s : State) (m : RealmId) : Time :=
  if (s.frame m).ticked then (s.frame m).tickAt + periodPs (s.rate m) else s.now

/-- A word of a 2 ms fade, linear in amplitude: W × t ÷ 2 ms on fade-in, W × (2 ms − t) ÷ 2 ms on fade-out, at `t` after the
fade's start (08 R291, R295; 02 R67; 09 R331). The rounding is free (log entry 5). -/
def fadeWord (up : Bool) (w : BitVec 32) (t : Time) : BitVec 32 :=
  let n := Config.quot 1 (w.toInt.natAbs * (if up then t else fadePs - t)) fadePs
  BitVec.ofInt 32 (if w.toInt < 0 then -(n : Int) else n)

/-- What a gate lets through (08 R291, R295; 02 R69): a faded word has a generated residue; a word that would fail its check keeps
its residue. -/
def gateLane (g : Gate) (now : Time) (l : Lane) : Lane :=
  match g.fade with
  | none => if g.closed then zeroLane else l
  | some t0 =>
    if t0 + fadePs ≤ now then (if g.closed then zeroLane else l)
    else if laneOk l then
      (if now ≤ t0 then (if g.closed then l else zeroLane) else mkLane (fadeWord (!g.closed) l.data (now - t0)))
    else l

/-- A gate that closes or opens with a fade from an instant. -/
def Gate.fading (closed : Bool) (t0 : Time) : Gate := ⟨closed, some t0⟩

/-- The gate with a finished fade removed. -/
def gateSettle (now : Time) (g : Gate) : Gate :=
  match g.fade with
  | some t0 => if t0 + fadePs ≤ now then { g with fade := none } else g
  | none => g

/-- The fade-in of a cold recall (06 R235). -/
def coldLane (f : FrameSt) (l : Lane) : Lane :=
  match f.cold with
  | none => l
  | some c =>
    let n := f.number + 1 - c.start
    if c.len ≤ n then l
    else if laneOk l then mkLane (BitVec.ofInt 32 (rho (xfWeight c.shape c.len n * l.data.toInt))) else l

def chanGet (o : OutSt) (c : Nat) : Chan := tget Chan.reset o.chans c
def State.chan (s : State) (m : RealmId) (c : Nat) : Chan := chanGet (s.realm m).out c
def State.modChan (s : State) (m : RealmId) (c : Nat) (f : Chan → Chan) : State :=
  s.modOut m (fun o => { o with chans := tmod Chan.reset o.chans c f })
def tileGate (o : OutSt) (k : Nat) : Gate := tget Gate.open o.tiles k

/-- Every cause of the realm, of the writer's tile and of the channel in turn (08 R290). -/
def gated (s : State) (m : RealmId) (tile c : Nat) (l : Lane) : Lane :=
  let o := (s.realm m).out
  let g := fun g l => gateLane g s.now l
  if o.cut then zeroLane
  else g o.pin (g o.pll (g o.mode (g o.safe (g (tileGate o tile) (g (chanGet o c).muted l)))))

/-- Every output of the realm is zero for a cause that acts without a fade. -/
def silenced (o : OutSt) : Bool :=
  o.cut || (o.pin.closed && o.pin.fade.isNone) || (o.pll.closed && o.pll.fade.isNone)

/-- A silencing interval starts, unless one runs already (08 R287). -/
def OutSt.silence (o : OutSt) (now : Time) : OutSt := { o with silentAt := if silenced o then o.silentAt else now }

/-- The output stages of all serialisers drive zero for the rest of the TDM frames in progress (08 R287; 09 R322, R330). -/
def quietPort (x : Port) : Port :=
  let z := fun (l : List (Option Bool)) => l.map (fun b => b.map (fun _ => false))
  { x with dout := z x.dout, tail := z x.tail }

def quietPorts (s : State) (m : RealmId) : State :=
  s.modRealm m (fun r => { r with ports := r.ports.map (fun p => (p.1, quietPort p.2)) })

/-! ## Objects of a channel -/

/-- Key of an element of a channel's objects on a page. -/
def chanKey (page c elem : Nat) : Nat := if c < 0x1000 then okey page (0x1000 + c) elem else okey page (0x2000 + (c - 0x1000)) elem

/-! ## SAFE (R294 to R296; 16 R546, R547) -/

/-- A transition starts; REALM_MODE_CHANGE makes it take effect at the next frame boundary. -/
def startTrans (s : State) (m : RealmId) (target : RMode) (stop : Bool) : State :=
  s.modRealm m (fun r => { r with trans := some ⟨target, stop, false, s.now⟩ })

def safeMode (r : RMode) : Bool := r == .run || r == .active || r == .standby

/-- Entry to SAFE for a cause; during TAKEOVER or another transition it waits. -/
def enterSafe (s : State) (m : RealmId) (cause : Nat) : State :=
  let r := s.realm m
  if r.mode = .safe then s
  else if r.mode = .takeover ∨ r.trans.isSome then s.modRealm m (fun r => { r with safeDue := some cause })
  else if safeMode r.mode then
    (startTrans s m .safe false).modRealm m (fun r => { r with safeDue := some cause })
  else s

/-- SAFE_ENTER (R294; 16 R547): during TAKEOVER a transition in progress is no bar. -/
def safeEnterErr (s : State) (m : RealmId) : Option Nat :=
  let r := s.realm m
  if !(safeMode r.mode || r.mode == .takeover) then some 0x17
  else if (r.trans.isSome ∧ r.mode ≠ .takeover) ∨ s.onat m o18_MBIST_STATE = 1 then some 0x18
  else none

def safeExitErr (s : State) (m : RealmId) : Option Nat :=
  let r := s.realm m
  if r.mode ≠ .safe then some 0x17
  else if r.trans.isSome then some 0x18
  else if s.onat m o1A_SAFE_CAUSE = 2 ∧ s.onat m o1A_HEALTH_MUTED ≤ s.onat m o1A_TALLY_MUTED_CHANNELS then some 0x18
  else none

/-- The realm returns to the mode it left, or to STANDBY when it left ACTIVE and its partner has taken over. -/
def safeExitDo (s : State) (m : RealmId) (partnerTook : Bool) : State :=
  let r := s.realm m
  startTrans s m (if r.safeFrom = .active ∧ partnerTook then .standby else r.safeFrom) false

/-! ## Channel faults (R286, R288) -/

/-- The outcome of Table 8-6 for P0_MUTED and HEALTH_MUTED, for a count that rises to them. -/
def healthReached (s : State) (m : RealmId) : State :=
  if s.onat m o1A_SAFE_ON_HEALTH = 1 then enterSafe s m 2 else s

def countMuted (s : State) (m : RealmId) : State :=
  let n := s.onat m o1A_TALLY_MUTED_CHANNELS + 1
  let s := s.oput m o1A_TALLY_MUTED_CHANNELS (n : Nat)
  let s := if n = s.onat m o1A_P0_MUTED then s.raise m 0x1A03 o1A_TALLY_MUTED_CHANNELS else s
  if n = s.onat m o1A_HEALTH_MUTED then healthReached s m else s

/-- A threshold written at or below the count takes effect at once (R298). -/
def thresholdWritten (s : State) (m : RealmId) (key : Nat) : State :=
  let n := s.onat m o1A_TALLY_MUTED_CHANNELS
  if s.onat m key ≤ n then
    (if key = o1A_P0_MUTED then s.raise m 0x1A03 o1A_TALLY_MUTED_CHANNELS
     else if key = o1A_HEALTH_MUTED then healthReached s m else s)
  else s

/-- The channel is tally-muted. -/
def tallyMute (s : State) (m : RealmId) (c : Nat) : State :=
  let s := s.modChan m c (fun x => { x with muted := Gate.shut })
  let s := (s.oput m (chanKey 0x1A c 1) 1).raise m 0x1A02 (chanKey 0x1A c 1)
  let s := countMuted s m
  if s.onat m o1A_AUTO_CLEAR = 1 ∧ (s.realm m).memory.clearing = none then poisonClearDo s m else s

def tallyWindow (s : State) (m : RealmId) : Time := ms (s.onat m o1A_TALLY_WINDOW)

/-- A channel fault, and the clean word that replaces the one that failed. -/
def chanFault (s : State) (m : RealmId) (c : Nat) : Lane × State :=
  let x := s.chan m c
  let s := (s.bump m (chanKey 0x1A c 0) 1).irq m 20
  let recent := s.now :: x.faults.filter (fun t => decide (s.now < t + tallyWindow s m))
  let s := s.modChan m c (fun x => { x with faults := recent })
  if x.muted.closed then (zeroLane, s)
  else if recent.length < s.onat m o1A_MUTE_AFTER then
    (x.prev, s.raiseOnce m 0x1A01 (chanKey 0x1A c 0) 0 (sec 1))
  else (zeroLane, tallyMute s m c)

/-- The word of a channel in this frame: repeated under R61, or taken, checked and replaced where it fails; first as it is
formed, then with the causes that silence it applied. The fade of a cold recall scales words that pass their check (06 R235), not
the previous emitted word that replaces a failing one. -/
def takeWord (s : State) (m : RealmId) (tile c : Nat) (l : Lane) (again : Bool) : Lane × Lane × State :=
  if again then
    let w := (s.chan m c).taken
    let s := s.bump m (chanKey 0x1A c 3) 1
    (w, gated s m tile c (coldLane (s.frame m) w), s.modChan m c (fun x => { x with repeated := true }))
  else
    let s := s.modChan m c (fun x => { x with taken := l, repeated := false })
    if laneOk l then (l, gated s m tile c (coldLane (s.frame m) l), s)
    else
      let (w, s) := chanFault s m c
      (w, gated s m tile c w, s)

/-- The previous emitted word of a channel (R289). -/
def emitted (s : State) (m : RealmId) (c : Nat) (l : Lane) : State := s.modChan m c (fun x => { x with prev := l })

/-! ## TALLY_UNMUTE, OVERRUN_CLEAR (R291; 02 R67, R68) -/

def tallyUnmuteErr (s : State) (m : RealmId) (c : Nat) : Option Nat :=
  if (s.chan m c).faults.any (fun t => decide (s.now < t + tallyWindow s m)) || (s.realm m).memory.clearing.isSome
  then some 0x18 else none

def tallyUnmuteDo (s : State) (m : RealmId) (c : Nat) : State :=
  let was := (s.chan m c).muted.closed
  let s := s.modChan m c (fun x =>
    { x with faults := [], muted := if was then Gate.fading false (nextTick s m) else x.muted })
  if was then
    (s.oput m (chanKey 0x1A c 1) 0).oput m o1A_TALLY_MUTED_CHANNELS
      ((s.onat m o1A_TALLY_MUTED_CHANNELS - 1 : Nat) : Int)
  else s

/-- A tile overran (R61, R65, R67). -/
def overrun (s : State) (m : RealmId) (k : Nat) : State :=
  let s := (s.bump m (o12_OVERRUN_COUNT + 16 * k) 1).irq m 3
  let recent := s.now :: (s.tile m k).overruns.filter (fun t => decide (s.now ≤ t + ms 100))
  let s := s.modTile m k (fun x => { x with overruns := recent })
  if 4 ≤ recent.length ∧ s.onat m (o12_OVERRUN_MUTED + 16 * k) = 0 then
    let s := s.modOut m (fun o => { o with tiles := tput Gate.open o.tiles k (Gate.fading true s.now) })
    (s.oput m (o12_OVERRUN_MUTED + 16 * k) 1).raise m 0x1202 (o12_OVERRUN_MUTED + 16 * k)
  else s

def overrunClearErr (s : State) (m : RealmId) (k : Nat) : Option Nat :=
  if (s.tile m k).overruns.any (fun t => decide (s.now ≤ t + ms 100)) then some 0x18 else none

def overrunClearDo (s : State) (m : RealmId) (k : Nat) : State :=
  if s.onat m (o12_OVERRUN_MUTED + 16 * k) = 1 then
    (s.oput m (o12_OVERRUN_MUTED + 16 * k) 0).modOut m (fun o =>
      { o with tiles := tput Gate.open o.tiles k (Gate.fading false (nextTick s m)) })
  else s

end Sys2Proof.Machine
end

