-- ==== Sys2Proof/Machine/Tdm.lean ====
section
/-!
DEFINITION. Serial audio ports (09): frame format, compaction, word conversion, the buoy, port states and fades, clock
supervision, alignment groups and the mute pin.
MARKED CHOICES of this file (DESIGN CHOICE, DEDUCED or PRESUMED): log entries 2, 5 and 34 to 36.
-/
namespace Sys2Proof.Machine

/-! ## Format (R301, R302, R306 to R309) -/

def pobj (s : State) (m : RealmId) (key p : Nat) : Nat := s.onat m (key + 16 * p)

def portSlots (s : State) (m : RealmId) (p : Nat) : Nat :=
  let v := pobj s m o20_SLOTS p
  if v = 0 then 32 else v
def slotWidth (s : State) (m : RealmId) (p : Nat) : Nat := pobj s m o20_SLOT_WIDTH p
def wordLen (s : State) (m : RealmId) (p : Nat) : Nat := pobj s m o20_WORD_LEN p
/-- F, the BCLK periods of a frame. -/
def frameBits (s : State) (m : RealmId) (p : Nat) : Nat := portSlots s m p * slotWidth s m p

/-- The active slots of a mask, in slot order. -/
def activeSlots (slots mask : Nat) : List Nat := (List.range slots).filter (maskHas mask)
def inSlots (s : State) (m : RealmId) (p : Nat) : List Nat := activeSlots (portSlots s m p) (pobj s m o20_IN_MASK p)
def outSlots (s : State) (m : RealmId) (p : Nat) : List Nat := activeSlots (portSlots s m p) (pobj s m o20_OUT_MASK p)

def bitsVal (l : List Bool) : Nat := l.foldl (fun a b => 2 * a + (if b then 1 else 0)) 0

/-- DIN as it is sampled: on the rising BCLK edge with BCLK_EDGE 0, on the falling one with 1 (R300). -/
def sampled (s : State) (m : RealmId) (p : Nat) (d : Bool × Bool) : Bool := if pobj s m o20_BCLK_EDGE p = 0 then d.1 else d.2

/-- The words of the active input slots: bit b of the frame lies OFFSET periods after period b (R301), the word is left
justified and gets its residue (R308). -/
def deserialise (s : State) (m : RealmId) (p : Nat) (din : List (Bool × Bool)) : List Lane :=
  let off := pobj s m o20_OFFSET p % frameBits s m p
  let len := wordLen s m p
  (inSlots s m p).map (fun sl =>
    let bits := (List.range len).map (fun b => sampled s m p (din.getD (off + sl * slotWidth s m p + b) (false, false)))
    mkLane (BitVec.ofNat 32 (bitsVal bits * 2 ^ (32 - len))))

/-- An output word converted to `len` bits, left justified, and whether it was limited (R309): the procedure of 04 R161 on
A = W × 2^31, whose residue is W's times 2^7, with the residue derived and checked (08 R283). A word that fails stays so. -/
def convertWord (len : Nat) (l : Lane) : LaneOut :=
  if len = 32 then ⟨l, false, false⟩
  else
    let o := convert (l.data.toInt * 2 ^ 31) (l.res.toNat * 128 % 255) ((len : Int) - 32) false (laneOk l) (laneTally l)
    if laneOk o.lane then
      let d := 32 - len
      let q := o.lane.data.toInt
      let hi : Int := 2 ^ (len - 1) - 1
      let lo : Int := -(2 ^ (len - 1))
      let w := if hi < q then hi else if q < lo then lo else q
      let word := BitVec.ofInt 32 (w * 2 ^ d)
      if w = q then derived word (resSum (rI o.lane.res * 2 ^ d)) true false false else ⟨mkLane word, false, true⟩
    else o

/-- A bit of DOUT where no active slot drives it (OUT_IDLE, Table 9-4). -/
def idleBit (s : State) (m : RealmId) (p : Nat) : Option Bool := if pobj s m o20_OUT_IDLE p = 1 then none else some false

/-- The DOUT bits of a frame: the words in their slots, the rest of an active slot 0, inactive slots idle (R302). -/
def shiftOut (s : State) (m : RealmId) (p : Nat) (words : List Lane) : List (Option Bool) :=
  let sl := outSlots s m p
  let len := wordLen s m p
  (List.range (frameBits s m p)).map (fun b =>
    let j := b / slotWidth s m p
    let k := b % slotWidth s m p
    match sl.findIdx? (· == j) with
    | some i => some (decide (k < len) && (words.getD i zeroLane).data.getLsbD (31 - k))
    | none => idleBit s m p)

/-- The level of FSYNC that is active (R300). -/
def fsyncActive (s : State) (m : RealmId) (p : Nat) : Bool := pobj s m o20_FSYNC_POL p == 0

/-- FSYNC of a master in each period of a frame: active for 1 period, or for floor(F ÷ 2) (R303). -/
def fsyncOut (s : State) (m : RealmId) (p : Nat) : List Bool :=
  let f := frameBits s m p
  let n := if pobj s m o20_FSYNC_FORM p = 0 then 1 else f / 2
  (List.range f).map (fun b => if b < n then fsyncActive s m p else !fsyncActive s m p)

/-! ## State -/

def State.port (s : State) (m : RealmId) (p : Nat) : Port := tget Port.reset (s.realm m).ports p
def State.modPort (s : State) (m : RealmId) (p : Nat) (f : Port → Port) : State :=
  s.modRealm m (fun r => { r with ports := tmod Port.reset r.ports p f })

def portState (s : State) (m : RealmId) (p : Nat) : Nat := pobj s m o20_STATE p
def isMaster (s : State) (m : RealmId) (p : Nat) : Bool := pobj s m o20_ROLE p == 0

/-- A port whose input channels and output channels carry words. -/
def portLive (st : Nat) : Bool := st == 3 || st == 4

/-- What a DISABLED port's pins carry: DOUT as OUT_IDLE says, FSYNC of a master at its inactive level (R300, R334). -/
def idlePins (s : State) (m : RealmId) (p : Nat) : State :=
  if portState s m p = 0 then
    s.modPort m p (fun x => { x with idle := idleBit s m p, fsync := if isMaster s m p then [!fsyncActive s m p] else [] })
  else s

/-- A change of STATE (R316); READY and the interrupt follow it. -/
def setPort (s : State) (m : RealmId) (p st : Nat) : State :=
  if portState s m p = st then s
  else
    let s := (s.oput m (o20_STATE + 16 * p) (st : Nat)).irq m 16
    let s := s.modPort m p (fun x => { x with count := 0, valid := 0, off := 0, invalid := 0, rateFrames := 0 })
    if st = 3 then
      (s.oput m (o20_PIN_FAULT + 16 * p) 0).modPort m p (fun x =>
        { x with taken := none, inFade := some (true, 0), outFade := some (true, 0), outs := [], sent := [] })
    else if st = 4 then
      s.modPort m p (fun x => { x with inFade := some (false, 0), outFade := some (false, 0) })
    else if st = 0 then
      idlePins (s.modPort m p (fun _ => Port.reset)) m p
    else if st = 6 then (s.raise m 0x2003 (o20_RATE_MEASURED + 16 * p)).modPort m p (fun x => { x with inFade := none })
    else s

/-- The input fade of a port that is lost in state `st`: a fade-out under way goes on, and inputs that read zero stay so
(R323). -/
def lostFade (st : Nat) (fade : Option (Bool × Nat)) : Option (Bool × Nat) :=
  if st = 3 then
    match fade with
    | some (false, k) => some (false, k)
    | _ => some (false, 0)
  else if st = 2 then fade
  else none

/-- Loss of a port: DOUT low at once, the input channels fade from the last good word (R322, R323). ENABLE = 0 accepted before
takes precedence (R316). -/
def losePort (s : State) (m : RealmId) (p : Nat) : State :=
  let st := portState s m p
  if st = 4 ∨ (st = 1 ∧ (s.port m p).stop) then setPort s m p 0
  else
    let s := setPort s m p 5
    let s := s.modPort m p (fun x =>
      { x with inFade := lostFade st x.inFade, outFade := none, frames := [], taken := none, outs := [], sent := [], dout := [],
               tail := [], idle := some false })
    (s.bump m (o20_LOSSES + 16 * p) 1).raise m 0x2002 (o20_STATE + 16 * p)

/-! ## Enable (R304, R316, R318, R321) -/

/-- The first condition of Table 9-1 that holds. -/
def enableCode (s : State) (m : RealmId) (p : Nat) : Nat :=
  let f := frameBits s m p
  let beyond := fun mask => decide (2 ^ portSlots s m p ≤ mask)
  let g := pobj s m o20_GROUP p
  let lt := pobj s m o20_LOSS_TIMEOUT p
  if 49152000 < f * s.rate m then 1
  else if slotWidth s m p < wordLen s m p then 2
  else if beyond (pobj s m o20_IN_MASK p) || beyond (pobj s m o20_OUT_MASK p) then 3
  else if lt ≠ 0 ∧ 2 * lt * f * s.rate m < 3 * 1000000000 then 4
  else if g ≠ 0 ∧ (isMaster s m p ∨ (pobj s m o20_ROLE p = 2 ∧ (List.range 16).any (fun j =>
      j != p && pobj s m o20_GROUP j == g && pobj s m o20_ROLE j == 2 && pobj s m o20_ENABLE j == 1))) then 5
  else 0

def portEnableErr (s : State) (m : RealmId) (p v : Nat) : Option Nat :=
  if v = 1 ∧ portState s m p = 0 ∧ enableCode s m p ≠ 0 then some 0x16 else none

/-- CONFIG_ERROR of a write of 1 that is refused. -/
def portRefused (s : State) (m : RealmId) (p v : Nat) : State :=
  if v = 1 ∧ portState s m p = 0 ∧ enableCode s m p ≠ 0 then
    s.oput m (o20_CONFIG_ERROR + 16 * p) (enableCode s m p : Nat) else s

def portEnableDo (s : State) (m : RealmId) (p v : Nat) : State :=
  let st := portState s m p
  if v = 1 then
    if st = 0 then
      let s := (s.oput m (o20_ENABLE + 16 * p) 1).oput m (o20_CONFIG_ERROR + 16 * p) 0
      let s := s.oput m (o20_LATENCY_FRAMES + 16 * p) (if isMaster s m p then 2 else 4)
      (setPort s m p (if isMaster s m p then 1 else 2)).modPort m p (fun x => { x with enabledAt := s.now, idle := some false })
    else s
  else
    let s := s.oput m (o20_ENABLE + 16 * p) 0
    if st = 3 then setPort s m p 4
    else if st = 1 then s.modPort m p (fun x => { x with stop := true })
    else if st = 0 ∨ st = 4 then s
    else setPort s m p 0

/-- Objects of the 0100 and 0200 ranges, and of a group, are written only while the ports are DISABLED (R305). -/
def portObjectErr (s : State) (m : RealmId) (index elem v : Nat) : Option Nat :=
  if 0x100 ≤ index ∧ index < 0x300 then
    let p := index % 0x100
    if index < 0x200 ∧ elem = 1 ∧ v = 2 ∧ 2 ≤ p then some 0x16
    else if (index < 0x200 → elem ≠ 0) ∧ portState s m p ≠ 0 then some 0x18 else none
  else if 0x501 ≤ index then
    if (List.range 16).any (fun p => pobj s m o20_GROUP p == index - 0x500 && portState s m p != 0) then some 0x18 else none
  else none

/-! ## The follower ports as reference candidates (10 R346, R347) -/

def State.clock (s : State) (m : RealmId) : ClockSt := (s.realm m).clock
def State.modClock (s : State) (m : RealmId) (f : ClockSt → ClockSt) : State :=
  s.modRealm m (fun r => { r with clock := f r.clock })

def cobj (s : State) (m : RealmId) (key c : Nat) : Nat := s.onat m (key + 16 * c)
def candState (s : State) (m : RealmId) (c : Nat) : Nat := cobj s m o22_CAND_STATE c
def State.cand (s : State) (m : RealmId) (c : Nat) : Cand := tget Cand.reset (s.clock m).cands c
def State.modCand (s : State) (m : RealmId) (c : Nat) (f : Cand → Cand) : State :=
  s.modClock m (fun x => { x with cands := tmod Cand.reset x.cands c f })

def setCandState (s : State) (m : RealmId) (c v : Nat) : State :=
  if candState s m c = v then s else (s.oput m (o22_CAND_STATE + 16 * c) (v : Nat)).irq m 17

/-- A candidate becomes ABSENT; a selected one is replaced at the next tick. -/
def loseCand (s : State) (m : RealmId) (c : Nat) : State :=
  let s := s.modCand m c (fun x => { x with signal := false, glitch := 0 })
  if candState s m c = 2 ∨ candState s m c = 3 then
    (setCandState s m c 1).bump m (o22_CAND_LOSSES + 16 * c) 1 else s

/-- A frame of a follower port: a valid one is its LEAD candidate's signal, one that is not valid while the port is RUNNING is a
glitch, and the fourth in a row makes the candidate ABSENT. -/
def leadFrame (s : State) (m : RealmId) (p : Nat) (ok : Bool) : State :=
  if 2 ≤ p ∨ pobj s m o20_ROLE p ≠ 2 then s
  else if ok then s.modCand m (3 + p) (fun x => { x with signal := true, glitch := 0 })
  else if portState s m p ≠ 3 then s
  else
    let s := (s.bump m (o22_GLITCHES + 16 * (3 + p)) 1).modCand m (3 + p) (fun x => { x with glitch := x.glitch + 1 })
    if 4 ≤ (s.cand m (3 + p)).glitch then loseCand s m (3 + p) else s

/-! ## Input frames (R312, R319, R320, R324) -/

def inTol (s : State) (m : RealmId) (p xo : Nat) : Bool :=
  let d : Int := (xo * s.rate m : Nat) - (49152000 : Int)
  decide (d.natAbs * 1000000 ≤ pobj s m o20_FRAME_TOL p * 49152000)

/-- Words after k steps of a port fade; the residue is generated after the word has passed its check (R317). -/
def fadeLane (up : Bool) (k : Nat) (l : Lane) : Lane :=
  let j := Nat.min k 32
  if laneOk l then mkLane (BitVec.ofInt 32 (rne (l.data.toInt * (if up then (j : Int) else 32 - j)) 32)) else l

def fadeWords (fade : Option (Bool × Nat)) (l : List Lane) : List Lane :=
  match fade with
  | none => l
  | some (up, k) => if up ∧ 32 ≤ k then l else l.map (fadeLane up k)

/-- A fade's next word. -/
def fadeStep (fade : Option (Bool × Nat)) : Option (Bool × Nat) := fade.map (fun f => (f.1, Nat.min 32 (f.2 + 1)))

/-- A complete TDM frame. Without M#_XO its length cannot be measured and it is not valid (01 R18). When it is found not to be
valid the serialiser sends zero for the rest of the output frame that the closing edge began, or for all of it (R320). -/
def takeInput (s : State) (m : RealmId) (p : Nat) (f : TdmIn) : State :=
  let shape := f.closed && f.periods == frameBits s m p
  let ok := shape && inTol s m p f.xo && (s.realm m).xo
  let st := portState s m p
  let x := s.port m p
  let words := if ok then deserialise s m p f.din else x.last
  let s := leadFrame (if ok then s else
    (s.bump m (o20_INVALID_FRAMES + 16 * p) 1).bump m (o20_CONCEALED_FRAMES + 16 * p) 1) m p ok
  let s := s.modPort m p (fun x =>
    { x with last := words, frames := (x.frames ++ [(⟨f.edge, s.now, words⟩ : InFrame)]).drop (x.frames.length - 2),
             valid := if ok then x.valid + 1 else 0, off := if shape && !ok then x.off + 1 else 0,
             invalid := if ok then 0 else x.invalid + 1, rateFrames := x.rateFrames + 1,
             zeroEdge := if !ok && f.closed then some f.edge else x.zeroEdge })
  let s := if !ok && (x.outEdge == some f.edge || !f.closed) then s.modPort m p quietPort else s
  if st = 6 ∧ ok then (setPort s m p 2).modPort m p (fun x => { x with valid := 1 }) else s

/-- The input channels take a frame. -/
def showFrame (s : State) (m : RealmId) (p : Nat) (f : InFrame) : State :=
  s.modPort m p (fun x =>
    { x with taken := some f.edge, held := f.words, shown := fadeWords x.inFade f.words,
             frames := x.frames.filter (fun g => decide (f.edge < g.edge)) })

/-- The word of an input channel: zero where no active slot exists (R307), and of a master while
the tick comes from the XO (10 R360). -/
def inWord (s : State) (m : RealmId) (c : Nat) : Lane :=
  let p := c / 32
  if portState s m p = 0 ∨ portState s m p = 1 ∨ (isMaster s m p ∧ (s.realm m).clock.masterZero) then zeroLane else (s.port m p).shown.getD (c % 32) zeroLane

/-- A master's frame that began at the tick of frame n − 1 is taken at the tick of frame n (R311): its last bits come with OFFSET
after the tick, and the port mover places its words when they have come (log entry 34). -/
def masterLate (s : State) (m : RealmId) (p : Nat) : Bool :=
  isMaster s m p && portLive (portState s m p) && (s.frame m).ticked && !(s.frame m).deadline

/-- IN vectors placed in exchange memory; a lane for which `word` gives nothing keeps its word. -/
def placeInputs (s : State) (m : RealmId) (word : State → Nat → Nat → Option Lane) : State :=
  let ens := (exchMap (runImg (s.frame m))).filter (fun x => x.cls == 0)
  ens.foldl (fun s x =>
    let old := (getVec (s.mem m) 0x80 x.vector).1
    s.wrVec m 0x80 x.vector (old.imap (fun i l => (word s x.kind (x.chan + i.val)).getD l))) s

/-! ## The buoy at a tick (R312, R314, R325 to R329) -/

/-- λ of a frame at a tick, in ps; a frame that is not complete has none. -/
def lambdaOf (now : Time) (f : InFrame) : Nat := now - f.done

/-- The frame whose λ lies nearest to T (R312). -/
def nearest (now t : Time) : List InFrame → Option InFrame
  | [] => none
  | f :: r =>
    match nearest now t r with
    | none => some f
    | some g =>
      let d := fun x => if lambdaOf now x ≤ t then t - lambdaOf now x else lambdaOf now x - t
      if d f < d g then some f else if d f = d g ∧ lambdaOf now f < lambdaOf now g then some f else some g

/-- The next frame in sequence. -/
def nextFrame (x : Port) : Option InFrame :=
  match x.taken with
  | none => x.frames.head?
  | some e => x.frames.find? (fun f => decide (e < f.edge))

/-- What a port does at a tick: 0 takes the next frame, 1 repeats the previous one, 2 discards one frame and takes the one
after it. -/
def slipAction (s : State) (m : RealmId) (p : Nat) : Nat :=
  let x := s.port m p
  let t := periodPs (s.rate m)
  let g := ns (pobj s m o20_SLIP_GUARD p)
  if x.taken.isNone then 0
  else
    match nextFrame x with
    | none => 1
    | some f =>
      let l := lambdaOf s.now f
      if l < g then 1 else if 2 * t < l + g then 2 else 0

def slipCount (s : State) (m : RealmId) (p : Nat) : State :=
  ((s.bump m (o20_SLIPS + 16 * p) 1).irq m 16).raiseOnce m 0x2001 (o20_SLIPS + 16 * p) p (sec 1)

def repeatFrame (s : State) (m : RealmId) (p : Nat) : State :=
  s.modPort m p (fun x => { x with shown := fadeWords x.inFade x.held, discard := true })

/-- The input side of a slave or follower at a tick, with the action of its own λ or of its group's anchor. -/
def slaveTick (s : State) (m : RealmId) (p act : Nat) : State :=
  let x := s.port m p
  let t := periodPs (s.rate m)
  if x.taken.isNone then
    match nearest s.now t x.frames with
    | some f => showFrame s m p f
    | none => repeatFrame s m p
  else if act = 1 then slipCount (repeatFrame s m p) m p
  else
    let y := if act = 2 then
        match nextFrame x with
        | some f => { x with taken := some f.edge }
        | none => x
      else x
    let s := if act = 2 then slipCount s m p else s
    match nextFrame y with
    | some f => showFrame s m p f
    | none => repeatFrame s m p

/-- A master takes the newest complete frame (R311). -/
def masterTick (s : State) (m : RealmId) (p : Nat) : State :=
  match (s.port m p).frames.getLast? with
  | some f => showFrame s m p f
  | none => s

def members (s : State) (m : RealmId) (g : Nat) : List Nat := (List.range 16).filter (fun p => pobj s m o20_GROUP p == g)

/-- The anchor of a group (R325). -/
def anchorOf (s : State) (m : RealmId) (g : Nat) : Option Nat :=
  let ok := (members s m g).filter (fun p => portState s m p == 3 && pobj s m o20_ALIGN_OUT p == 0)
  (ok.find? (fun p => pobj s m o20_ROLE p == 2)).or ok.head?

/-- The frame that a port would take with an action. -/
def frameFor (x : Port) (act : Nat) : Option InFrame :=
  if act = 2 then nextFrame { x with taken := (nextFrame x).map (·.edge) } else nextFrame x

/-- The FSYNC edges that close a member's frame and the anchor's lie within ALIGN_TOL BCLK periods of each other (R327); both frames
end OFFSET periods after their edge. A member without a complete frame is not aligned. -/
def alignedWith (s : State) (m : RealmId) (g p a : Nat) (f h : Option InFrame) : Bool :=
  match f, h with
  | some f, some h =>
    let edge := fun (p : Nat) (f : InFrame) =>
      (f.done : Int) * (frameBits s m p * s.rate m : Nat) - (pobj s m o20_OFFSET p * 1000000000000 : Nat)
    let bits := frameBits s m p * s.rate m
    let d := (edge p f) * (frameBits s m a * s.rate m : Nat) - (edge a h) * (bits : Nat)
    decide (d.natAbs ≤ s.onat m (o20_ALIGN_TOL + 16 * (g - 1)) * 1000000000000 * (frameBits s m a * s.rate m))
  | _, none => true
  | none, some _ => false

/-- The frame of the anchor at a tick (R312, R326). -/
def anchorFrame (s : State) (m : RealmId) (a act : Nat) : Option InFrame :=
  let x := s.port m a
  if act = 1 then none
  else if x.taken.isNone then nearest s.now (periodPs (s.rate m)) x.frames
  else frameFor x act

/-- A member whose frames are aligned takes its frame; one that rejoins fades in (R326, R328). -/
def memberTakes (s : State) (m : RealmId) (act p : Nat) (f : Option InFrame) : State :=
  let s := s.modPort m p (fun x => { x with misses := 0, aligned := x.aligned + 1 })
  let x := s.port m p
  let out := pobj s m o20_ALIGN_OUT p == 1
  let s := if out && x.rejoin then
      (s.oput m (o20_ALIGN_OUT + 16 * p) 0).modPort m p (fun x =>
        { x with rejoin := false, inFade := some (true, 1), outFade := some (true, 1) })
    else s
  if out || x.taken.isNone then
    let s := if act = 2 then slipCount s m p else s
    match f with
    | some f => showFrame s m p f
    | none => repeatFrame s m p
  else slaveTick s m p act

/-- A member outside ALIGN_TOL, or without a complete frame (R327): its words are repeated once, then its inputs fade out and its
outputs are zero. -/
def memberMisses (s : State) (m : RealmId) (p : Nat) : State :=
  let x := s.port m p
  let s := s.oput m (o20_ALIGN_OUT + 16 * p) 1
  let s := s.modPort m p (fun x => { x with misses := x.misses + 1, aligned := 0, rejoin := false, discard := true })
  if x.misses = 0 then (repeatFrame s m p).bump m (o20_CONCEALED_FRAMES + 16 * p) 1
  else
    let down : Option (Bool × Nat) := match x.inFade with
      | some (false, k) => some (false, k)
      | _ => some (false, 1)
    s.modPort m p (fun x =>
      { x with inFade := down, outFade := some (false, 32), outs := [], sent := [], shown := fadeWords down x.held })

/-- A member of a group at a tick: `h` is the anchor's frame. A member with ALIGN_OUT, or that has taken none, is judged by its
frame with the λ nearest to the anchor's. -/
def memberTick (s : State) (m : RealmId) (g act a : Nat) (h : Option InFrame) (p : Nat) : State :=
  let x := s.port m p
  let out := pobj s m o20_ALIGN_OUT p == 1
  if p = a then slaveTick (s.modPort m p (fun x => { x with misses := 0, aligned := x.aligned + 1 })) m p act
  else if act = 1 then slipCount (repeatFrame s m p) m p
  else
    let f := if out || x.taken.isNone then nearest s.now (h.elim (periodPs (s.rate m)) (lambdaOf s.now)) x.frames else frameFor x act
    if alignedWith s m g p a f h then memberTakes s m act p f else memberMisses s m p

def groupTick (s : State) (m : RealmId) (g : Nat) : State :=
  let live := (members s m g).filter (fun p => portLive (portState s m p))
  let s := match anchorOf s m g with
    | some a =>
      let act := slipAction s m a
      let h := anchorFrame s m a act
      live.foldl (fun s p => memberTick s m g act a h p) s
    | none => live.foldl (fun s p => slaveTick s m p (slipAction s m p)) s
  s.oput m (o20_ANCHOR + 16 * (g - 1)) (((anchorOf s m g).getD 0xFF : Nat) : Int)

/-- λ and BUOY_LEVEL, in ns. -/
def buoyLevel (s : State) (m : RealmId) (p : Nat) (before : List InFrame) : State :=
  match (s.port m p).taken with
  | some e =>
    match before.find? (fun f => f.edge == e) with
    | some f =>
      let l := lambdaOf s.now f
      (s.oput m (o20_BUOY_LEVEL + 16 * p) ((l / 1000 : Nat) : Int)).modPort m p (fun x => { x with lam := some l })
    | none => s
  | none => s

/-- The fades move on by one word, and states that count frames count this one. -/
def portClock (s : State) (m : RealmId) (p : Nat) : State :=
  let st := portState s m p
  let s := s.modPort m p (fun x =>
    { x with inFade := fadeStep x.inFade, outFade := fadeStep x.outFade, count := x.count + 1, discard := false })
  let x := s.port m p
  if st = 1 ∧ x.stop then setPort s m p 0
  else if st = 5 ∨ st = 2 then
    s.modPort m p (fun x => { x with shown := if x.inFade.isSome then fadeWords x.inFade x.held else [] })
  else if st = 6 then s.modPort m p (fun x => { x with shown := [] })
  else s

/-- All ports at a realm tick. -/
def tdmTick (s : State) (m : RealmId) : State :=
  let before := (List.range 16).map (fun p => (s.port m p).frames)
  let s := forN 16 (fun p s => portClock s m p) s
  let s := forN 16 (fun p s =>
    if portLive (portState s m p) then
      if isMaster s m p then masterTick s m p
      else if pobj s m o20_GROUP p = 0 then slaveTick s m p (slipAction s m p) else s
    else s) s
  let s := forN 8 (fun g s => groupTick s m (g + 1)) s
  forN 16 (fun p s => if isMaster s m p then s else buoyLevel s m p (before.getD p [])) s

/-- A complete input frame; a change of FSYNC to its inactive level closes none (R300, R303). -/
def execTdmInputFrame (e : PEv) (f : TdmIn) (s : State) : Result :=
  let s := s.at e.t
  if 16 ≤ e.p ∨ portState s e.m e.p = 0 ∨ portState s e.m e.p = 5 ∨ (f.closed ∧ f.level ≠ fsyncActive s e.m e.p) then .next s
  else
    let late := masterLate s e.m e.p
    let s := takeInput s e.m e.p f
    .next (if late then
      placeInputs (masterTick s e.m e.p) e.m (fun s kind c =>
        if kind = 0 ∧ c / 32 = e.p then some (inWord s e.m c) else none)
      else s)

/-! ## Output frames (R311, R313, R285) -/

/-- A channel for which an active slot exists. -/
def outActive (s : State) (m : RealmId) (c : Nat) : Bool := decide (c < 512) && decide (c % 32 < (outSlots s m (c / 32)).length)

/-- The word that a port sends: WORD_LEN conversion, the port fade, and the port's state (R309, R316, R317). -/
def portWord (s : State) (m : RealmId) (p : Nat) (l : Lane) : Lane × Bool :=
  let x := s.port m p
  let l := match x.outFade with
    | some (up, k) => if up ∧ 32 ≤ k then l else fadeLane up k l
    | none => l
  if laneOk l then
    let o := convertWord (wordLen s m p) l
    (o.lane, o.sat)
  else (l, false)

/-- The output words of a realm frame wait for the TDM frame that carries them: of a master the one that begins at the next tick
(R311), of another port the one that begins at the third edge after that of the input frame taken (R313). -/
def sendFrame (s : State) (m : RealmId) (p : Nat) (words : List Lane) : State :=
  let x := s.port m p
  if isMaster s m p then s.modPort m p (fun x => { x with outs := [(0, words)] })
  else
    match x.taken with
    | some e =>
      if x.discard || x.outs.any (fun o => o.1 == e + 3) then s
      else s.modPort m p (fun x => { x with outs := x.outs ++ [(e + 3, words)] })
    | none => s

/-- A TDM frame of output words begins at an FSYNC edge: the words wait for that edge, or the previous ones are sent
again. A word that fails its check is shifted out as zero and counted, whatever silences the port (R285). The first OFFSET periods
carry the last bits of the frame before (R301). -/
def execTdmOutputFrame (e : PEv) (edge : Nat) (s : State) : Result :=
  let s := s.at e.t
  let p := e.p
  let st := portState s e.m p
  if 16 ≤ p ∨ st = 0 then .next s
  else
    let x := s.port e.m p
    let words := match x.outs.find? (fun o => o.1 == edge || o.1 == 0) with
      | some o => o.2
      | none => x.sent
    let bad := (words.filter (fun l => !laneOk l)).length
    let live := portLive st && !silenced (s.realm e.m).out && x.zeroEdge != some edge
    let s := if bad ≠ 0 then s.bump e.m (o1A_SERIALISER_ZERO + 16 * p) bad else s
    let clean := words.map (fun l => if live && laneOk l then l else zeroLane)
    let bits := shiftOut s e.m p clean
    let off := pobj s e.m o20_OFFSET p % frameBits s e.m p
    let head := if x.tail = [] then List.replicate off (some false) else x.tail
    .next (s.modPort e.m p (fun x =>
      { x with outs := x.outs.filter (fun o => decide (edge < o.1)), sent := words, outEdge := some edge,
               dout := if st = 5 then [] else head ++ bits.take (bits.length - off), tail := bits.drop (bits.length - off),
               fsync := if isMaster s e.m p then fsyncOut s e.m p else [], rise := pobj s e.m o20_BCLK_EDGE p == 1,
               zeroEdge := if x.zeroEdge = some edge then none else x.zeroEdge }))

/-! ## Port states (R316) -/

def execStartFramesDone (e : PEv) (s : State) : Result :=
  let s := s.at e.t
  .next (if e.p < 16 ∧ portState s e.m e.p = 1 ∧ (s.port e.m e.p).stop = false
      ∧ pobj s e.m o20_START_FRAMES e.p ≤ (s.port e.m e.p).count then setPort s e.m e.p 3 else s)

def execRequalified (e : PEv) (s : State) : Result :=
  let s := s.at e.t
  let x := s.port e.m e.p
  let n := pobj s e.m o20_REQUAL_FRAMES e.p
  .next (if e.p < 16 ∧ portState s e.m e.p = 2 then
      (if n ≤ x.valid then setPort s e.m e.p 3 else if n ≤ x.off then setPort s e.m e.p 6 else s)
    else s)

def execStopFramesDone (e : PEv) (s : State) : Result :=
  let s := s.at e.t
  .next (if e.p < 16 ∧ portState s e.m e.p = 4 ∧ 32 + pobj s e.m o20_STOP_FRAMES e.p ≤ (s.port e.m e.p).count then
      setPort s e.m e.p 0 else s)

def execInvalidLimitReached (e : PEv) (s : State) : Result :=
  let s := s.at e.t
  .next (if e.p < 16 ∧ portState s e.m e.p = 3 ∧ pobj s e.m o20_INVALID_LIMIT e.p ≤ (s.port e.m e.p).invalid then
      losePort s e.m e.p else s)

/-- RATE_MEASURED, every 256 frames in WRONG_RATE. -/
def execRateMeasuredUpdate (e : PEv) (rate : Nat) (s : State) : Result :=
  let s := s.at e.t
  .next (if e.p < 16 ∧ portState s e.m e.p = 6 ∧ 256 ≤ (s.port e.m e.p).rateFrames ∧ telemetry s e.m then
      (s.oput e.m (o20_RATE_MEASURED + 16 * e.p) ((rate % 4294967296 : Nat) : Int)).modPort e.m e.p (fun x => { x with rateFrames := 0 })
    else s)

/-- The effective timeout in XO periods (R321): LOSS_TIMEOUT, or 3.5 nominal BCLK periods and no less than 80 ns, rounded up. -/
def lossPeriods (s : State) (m : RealmId) (p : Nat) : Nat :=
  let lt := pobj s m o20_LOSS_TIMEOUT p
  let up := fun (n d : Nat) => (n + d - 1) / d
  if lt ≠ 0 then up (lt * 49152) 1000000
  else Nat.max (up (7 * 49152000) (2 * frameBits s m p * s.rate m)) (up (80 * 49152) 1000000)

/-- The detector has expired: `last` is the instant of the last BCLK edge, none where the ball has seen none since the enable. -/
def edgeMissing (s : State) (m : RealmId) (p : Nat) (last : Option Time) : Bool :=
  (s.realm m).xo && decide (lossPeriods s m p * 1000000000
    ≤ (s.now - Nat.max (last.getD 0) (s.port m p).enabledAt) * 49152)

/-- Loss of the bit clock (R321, R322): a master, whose own clock is not seen, also sets PIN_FAULT. -/
def execMissingEdgeTimeout (e : EdgeEv) (s : State) : Result :=
  let s := s.at e.t
  let st := portState s e.m e.p
  if 16 ≤ e.p ∨ st = 0 ∨ st = 5 ∨ edgeMissing s e.m e.p e.last = false then .next s
  else
    let s := losePort s e.m e.p
    .next (if isMaster s e.m e.p ∧ portState s e.m e.p = 5 then s.oput e.m (o20_PIN_FAULT + 16 * e.p) 1 else s)

def execBclkReturn (e : PEv) (s : State) : Result :=
  let s := s.at e.t
  .next (if e.p < 16 ∧ portState s e.m e.p = 5 then setPort s e.m e.p 2 else s)

/-- REJOIN_FRAMES aligned frames: ALIGN_OUT clears at the next tick (R328). -/
def execRejoin (e : PEv) (s : State) : Result :=
  let s := s.at e.t
  let g := pobj s e.m o20_GROUP e.p
  .next (if e.p < 16 ∧ g ≠ 0 ∧ pobj s e.m o20_ALIGN_OUT e.p = 1
      ∧ s.onat e.m (o20_REJOIN_FRAMES + 16 * (g - 1)) ≤ (s.port e.m e.p).aligned then
      s.modPort e.m e.p (fun x => { x with rejoin := true }) else s)

/-! ## The mute pin (R330 to R332) -/

/-- A low level that is acted on. -/
def pinMute (s : State) (m : RealmId) : State :=
  let s := quietPorts (s.modOut m (fun o => { o.silence s.now with pin := Gate.shut })) m
  let s := ((s.oput m o20_MUTE_PIN_STATE 1).bump m o20_MUTE_PIN_COUNT 1).irq m 0
  s.raise m 0x2004 o20_MUTE_PIN_STATE

def pinRelease (s : State) (m : RealmId) : State :=
  let s := s.modOut m (fun o => { o with pin := Gate.fading false (nextTick s m) })
  (s.oput m o20_MUTE_PIN_STATE 0).irq m 0

/-- The level at M#_MUTE_N falls and stays low for a time: 50 ns or longer is acted on, shorter than 20 ns is ignored,
and between the two the outcome is free (log entry 2). -/
def execMutePin (e : Ev) (low : Time) (s : State) : Result :=
  let s := s.at e.t
  let (d, s') := s.draw
  let mid := decide (ns 20 ≤ low) && decide (low < ns 50)
  let s := if mid then s' else s
  if ns 50 ≤ low ∨ (mid ∧ d % 2 = 1) then
    let s := s.modOut e.m (fun o => { o with pinLow := true, pinRose := s.now + low })
    .next (if s.onat e.m o20_MUTE_PIN_ENABLE = 1 then pinMute s e.m else s)
  else .next s

/-- The pin has stayed high for MUTE_RELEASE. -/
def execMuteRelease (e : Ev) (s : State) : Result :=
  let s := s.at e.t
  let o := (s.realm e.m).out
  .next (if s.onat e.m o20_MUTE_PIN_STATE = 1 ∧ o.pinRose + ns (s.onat e.m o20_MUTE_RELEASE) ≤ s.now then
      pinRelease (s.modOut e.m (fun o => { o with pinLow := false })) e.m
    else s)

/-- A write of MUTE_PIN_ENABLE. -/
def mutePinEnableDo (s : State) (m : RealmId) (v : Nat) : State :=
  let s := s.oput m o20_MUTE_PIN_ENABLE (v : Nat)
  let o := (s.realm m).out
  if v = 0 then (if s.onat m o20_MUTE_PIN_STATE = 1 then pinRelease s m else s)
  else if o.pinLow ∧ s.now < o.pinRose ∧ s.onat m o20_MUTE_PIN_STATE = 0 then pinMute s m else s

end Sys2Proof.Machine
end

