-- ==== Sys2Proof/Machine/Ready.lean ====
section
/-!
DEFINITION. The modes of a realm as codes (13 Table 13-4), its READY bits (13 R451), and whether its outputs drive
(17 R568).
MARKED CHOICES of this file (DESIGN CHOICE, DEDUCED or PRESUMED): log entries 15 and 32.
-/
namespace Sys2Proof.Machine

def modeCode : RMode → Nat
  | .dormant => 0
  | .bringUp => 1
  | .run => 2
  | .active => 3
  | .standby => 4
  | .takeover => 5
  | .safe => 6
  | .maintenance => 7

def modeOf (c : Nat) : Option RMode :=
  [RMode.dormant, .bringUp, .run, .active, .standby, .takeover, .safe, .maintenance][c]?

/-- A change of MODE (13 R450). FIXED_REQUEST is 0 outside MAINTENANCE (02 R53). -/
def setMode (s : State) (m : RealmId) (x : RMode) : State :=
  if (s.realm m).mode = x then s
  else
    let s := if (s.realm m).mode = .maintenance then s.oput m o12_FIXED_REQUEST 0 else s
    let s := s.modRealm m (fun r => { r with mode := x })
    let s := s.oput m o10_MODE (modeCode x : Nat)
    (s.oput m o10_MODE_SINCE (tsInt (s.tbNs m))).raise m 0x1001 o10_MODE

/-- Bits of Table 13-5. Without M#_XO the PLL, the timebase and the ports are not ready (01 R18). -/
def readyBits (s : State) (m : RealmId) : Nat :=
  let b := fun (i : Nat) (c : Bool) => if c then 2 ^ i else 0
  let xo := (s.realm m).xo
  let tb := s.onat m o24_TB_STATE
  b 0 (s.realm m).bus.keeper + b 1 (s.onat m o12_T_ADM != 0xFFFFFFFF) + b 2 (xo && s.onat m o22_PLL_STATE == 4) + b 3 xo
    + b 4 (xo && (tb == 2 || tb == 4)) + b 5 (s.onat m o22_REF_STATE == 2)
    + b 6 (s.onat m o24_LINK_STATE == 1) + b 7 (s.onat m (o24_LINK_STATE + 16) == 1)
    + b 8 ((s.frame m).stA == 4 || (s.frame m).stB == 4) + b 9 (bankSt (s.frame m) (inactive (s.frame m)) == 3)
    + (List.range 16).foldl (fun a p => a + b (16 + p) (xo && portState s m p == 3)) 0

/-- The ms since BRING-UP of the first setting of each bit. -/
def readyAt (s : State) (m : RealmId) (bits : Nat) : Int :=
  let old := s.oget m o10_READY_AT
  let t := Nat.min ((s.now - (s.realm m).bringUpAt) / ms 1) 0xFFFFFFFE
  (List.range 32).foldl (fun v j =>
    let e := v / (2 ^ (32 * j) : Nat) % 4294967296
    if bits / 2 ^ j % 2 = 1 ∧ e = 0xFFFFFFFF then v - (0xFFFFFFFF - (t : Int)) * (2 ^ (32 * j) : Nat) else v) old

/-- HH_READY_Mn follows READY while the Host Hub is ready (15 R519, Table 15-8). -/
def showReady (s : State) (m : RealmId) : State :=
  let n := (s.realm m).ready
  if s.hub.ready = false ∨ s.hub.mirror.get m = n then s
  else ({ s with hub := { s.hub with mirror := s.hub.mirror.set m n } } : State).hirq (6 + m.val)

/-- READY takes a value, which HH_READY_Mn follows. -/
def mirrorReady (s : State) (m : RealmId) (n : Nat) : State := showReady (s.modRealm m (fun r => { r with ready := n })) m

/-- READY follows its conditions; a change raises READY_CHANGE and is mirrored in HH_READY_Mn (15 R519). The bits come up
on their own from entry to BRING-UP (16 R556); the object's bit 0 always reads 1 (13 Table 13-5). After a watchdog restart
the mirror stays 0 until the Keeper is ready again (14 R474). -/
def publishReady (s : State) (m : RealmId) : State :=
  let b := (s.realm m).bus.keeper
  if (s.realm m).mode ≠ .dormant ∧ (b ∨ s.onat m o10_READY_AT % 4294967296 = 0xFFFFFFFF) then
    let n := readyBits s m
    if (s.realm m).ready = n then s
    else
      let s := mirrorReady s m n
      ((s.oput m o10_READY_AT (readyAt s m n)).oput m o10_READY ((n + (n + 1) % 2 : Nat) : Int)).raise m 0x1002 o10_READY
  else s

/-- Whether the realm drives its TDM balls and sends its transmit streams: not in STANDBY, in TAKEOVER before the take
frame, or in SAFE entered from STANDBY; a realm that leaves RUN drives until its fade has ended. -/
def realmDrives (r : Realm) : Bool :=
  match r.mode with
  | .standby =>
    match r.trans with
    | some t => t.target == .standby && t.begun && r.out.mode.closed
    | none => false
  | .takeover => false
  | .safe => r.safeFrom != .standby
  | _ => true

end Sys2Proof.Machine
end

