-- ==== Sys2Proof/Machine/Net.lean ====
section
/-!
DEFINITION. Network ports (11 R374 to R382): links, modules, the acceptance of frames, ARP, ICMP echo, IGMPv3, and the
packets that a port sends.
MARKED CHOICES of this file (DESIGN CHOICE, DEDUCED or PRESUMED): log entries 2 and 37.
-/
namespace Sys2Proof.Machine

def npobj (s : State) (m : RealmId) (key p : Nat) : Nat := s.onat m (key + 16 * p)
def State.net (s : State) (m : RealmId) : NetSt := (s.realm m).net
def State.modNet (s : State) (m : RealmId) (f : NetSt → NetSt) : State := s.modRealm m (fun r => { r with net := f r.net })
def State.nport (s : State) (m : RealmId) (p : Nat) : NetPort := tget NetPort.reset (s.net m).ports p
def State.modNport (s : State) (m : RealmId) (p : Nat) (f : NetPort → NetPort) : State :=
  s.modNet m (fun n => { n with ports := tmod NetPort.reset n.ports p f })

def macAddr (s : State) (m : RealmId) (p : Nat) : Nat := npobj s m o24_MAC_ADDRESS p

def ipAddr (s : State) (m : RealmId) (p : Nat) : Nat := npobj s m o24_IP_ADDRESS p

/-- The order of octets of a MAC address object: bits [47:40] are the first octet. -/
def macBytes (v : Nat) : List Byte := toBe 6 v

/-! ## Links and modules (R375, R376) -/

def setLink (s : State) (m : RealmId) (p v : Nat) : State :=
  let old := npobj s m o24_LINK_STATE p
  if old = v then s
  else
    let s := (s.oput m (o24_LINK_STATE + 16 * p) (v : Nat)).irq m 15
    publishReady (if v = 0 then s.raise m 0x2401 (o24_LINK_STATE + 16 * p) else s) m

/-- The frames that wait on a port that goes DOWN stay queued. -/
def linkDown (s : State) (m : RealmId) (p : Nat) : State :=
  if npobj s m o24_LINK_STATE p = 1 then setLink s m p 0 else s

/-- While LINK_ENABLE is 0 the port is DOWN. -/
def linkEnableDo (s : State) (m : RealmId) (p v : Nat) : State :=
  let s := s.oput m (o24_LINK_ENABLE + 16 * p) (v : Nat)
  if v = 0 then (setLink s m p 0).resetMaster m (2 + 10 * p) else s

/-- Bytes of a BLOB object. -/
def blob (n : Nat) (b : List Byte) : Int := ((leBytes (b.take n) : Nat) : Int)

/-- The Keeper selects a port's module at the I2C switch; without a switch the bus holds NETA's module alone (R376). -/
def selectModule (s : State) (m : RealmId) (p : Nat) (switch : Bool) : State :=
  s.modNet m (fun n => { n with i2c := if switch then some (p + 1) else none })

/-- A module of a port can be read: the one at 0x50 acknowledges, behind the switch or as NETA's alone. -/
def moduleThere (p : Nat) (a : I2cAck) : Bool := a.module && (a.switch || p == 0)

/-! ## Checks of a frame (R378, R379) -/

/-- CRC-32 of IEEE 802.3. -/
def fcsStep : Nat → Nat → Nat
  | 0, c => c
  | n + 1, c => fcsStep n (if c % 2 = 1 then (c / 2) ^^^ 0xEDB88320 else c / 2)
def fcsAcc (c : Nat) : List Byte → Nat
  | [] => c
  | b :: r => fcsAcc (fcsStep 8 (c ^^^ b.toNat)) r
def fcs32 (bs : List Byte) : Nat := fcsAcc 0xFFFFFFFF bs ^^^ 0xFFFFFFFF

def byteAt (l : List Byte) (i : Nat) : Nat := (l.getD i 0).toNat

/-- Ones' complement sum of 16-bit words. -/
def ipSum : List Byte → Nat
  | [] => 0
  | [a] => a.toNat * 256
  | a :: b :: r => a.toNat * 256 + b.toNat + ipSum r
def foldSum : Nat → Nat → Nat
  | 0, v => v
  | n + 1, v => foldSum n (v / 65536 + v % 65536)
def ipCheck (l : List Byte) : Nat := 65535 - foldSum 4 (ipSum l) % 65536

/-- The UDP checksum over the pseudo-header and the datagram; a result of 0 is sent as 0xFFFF (R382). -/
def udpSum (src dst : Nat) (dgram : List Byte) : Nat :=
  let c := ipCheck (toBe 4 src ++ toBe 4 dst ++ [0, 17] ++ toBe 2 dgram.length ++ dgram)
  if c = 0 then 0xFFFF else c

def isMulticast (ip : Nat) : Bool := ip / 2 ^ 28 == 14

/-- Multicast MAC address of a group (RFC 1112). -/
def groupMac (ip : Nat) : Nat := 0x01005E000000 + ip % 2 ^ 23

/-- Key of a receive or transmit stream's objects. -/
def rxo (s : State) (m : RealmId) (key k : Nat) : Nat := s.onat m (key + 16 * k)

/-- The groups of R378 that a port has joined: those of its enabled receive streams, the PTP groups, the beacon group
while the realm is paired or referees, and all systems. -/
def joined (s : State) (m : RealmId) (p : Nat) : List (Nat × Nat) :=
  let st := (List.range 64).filter (fun k => rxo s m o26_ENABLE k == 1)
  let g := st.map (fun k => if p = 0 then (rxo s m o26_GROUP_A k, rxo s m o26_SOURCE_A k)
    else (rxo s m o26_GROUP_B k, rxo s m o26_SOURCE_B k))
  let beacon := s.onat m o30_BEACON_GROUP
  g.filter (fun x => isMulticast x.1) ++ [(0xE0000181, 0), (0xE000006B, 0), (0xE0000001, 0)]
    ++ (if isMulticast beacon && (s.onat m o30_PAIR_MODE == 1 || s.onat m o30_REFEREE_ENABLE == 1) then [(beacon, 0)] else [])

/-- Where the EtherType stands, and whether the tags are as VLAN_ID requires. -/
def etherOff (s : State) (m : RealmId) (p : Nat) (f : List Byte) : Option Nat :=
  let v := npobj s m o24_VLAN_ID p
  let t := be f 12 2
  if v = 0 then (if t = 0x8100 ∨ t = 0x88A8 then none else some 12)
  else if t = 0x8100 ∧ be f 14 2 % 4096 = v ∧ be f 16 2 ≠ 0x8100 then some 16 else none

/-- A frame accepted under R378 after its FCS: where its EtherType stands. -/
def frameOk (s : State) (m : RealmId) (p : Nat) (f : List Byte) : Option Nat :=
  if f.length < 64 ∨ 1522 < f.length then none
  else
    match etherOff s m p f with
    | none => none
    | some o =>
      let ty := be f o 2
      let d := be f 0 6
      let own := d == macAddr s m p
      let group := (joined s m p).any (fun g => groupMac g.1 == d)
      if (ty = 0x0806 ∧ (own ∨ group ∨ d = 2 ^ 48 - 1)) ∨ (ty = 0x0800 ∧ (own ∨ group)) then some o else none

/-- The IPv4 packet of a frame, without Ethernet padding. -/
def ipPacket (f : List Byte) (o : Nat) : List Byte :=
  let b := (f.drop (o + 2)).take (f.length - o - 6)
  b.take (be b 2 2)

/-- An IPv4 packet accepted under R379. -/
def ipOk (s : State) (m : RealmId) (p : Nat) (i : List Byte) : Bool :=
  let len := be i 2 2
  let dst := be i 16 4
  let dg := i.drop 20
  decide (20 ≤ i.length) && i.length == len && byteAt i 0 == 0x45 && ipCheck (i.take 20) == 0
    && be i 6 2 % 16384 == 0 && (dst == ipAddr s m p || (joined s m p).any (fun g => g.1 == dst))
    && (byteAt i 9 != 17 || (decide (8 ≤ dg.length) && be dg 4 2 == dg.length && (be dg 6 2 == 0
      || foldSum 4 (ipSum (i.drop 12 |>.take 8) + 17 + dg.length + ipSum dg) % 65536 == 65535)))

/-! ## Queue for the Keeper (R381) -/

def dropFrame (s : State) (m : RealmId) (p : Nat) : State := s.bump m (o24_RX_DROPS + 16 * p) 1

def toKeeper (s : State) (m : RealmId) (p : Nat) (stamp : Int) (f : List Byte) : State :=
  if 256 ≤ (s.nport m p).queue.length then dropFrame s m p
  else (s.modNport m p (fun x => { x with queue := x.queue ++ [(stamp, f)] })).irq m (12 + p)

/-- The Keeper takes a frame from its queue. -/
def fromQueue (s : State) (m : RealmId) (p : Nat) (f : List Byte) : State :=
  s.modNport m p (fun x => { x with queue := x.queue.eraseP (fun q => q.2 == f) })

/-- The UDP payload of a frame that rests in a queue. -/
def udpPayload (s : State) (m : RealmId) (p : Nat) (f : List Byte) : List Byte :=
  let i := ipPacket f ((etherOff s m p f).getD 12)
  (i.drop 28).take (be i 24 2 - 8)

/-- The Keeper takes the first frame that carries a Biluno message. -/
def takeUdp (s : State) (m : RealmId) (p : Nat) (d : List Byte) : State :=
  s.modNport m p (fun x => { x with queue := x.queue.eraseP (fun q => udpPayload s m p q.2 == d) })

def holdsUdp (s : State) (m : RealmId) (p : Nat) (d : List Byte) : Bool :=
  (s.nport m p).queue.any (fun q => udpPayload s m p q.2 == d)

/-! ## Sending -/

/-- The 20 bytes of an IPv4 header before its checksum is inserted: no options, not a fragment. -/
def ipHeader (src : Nat) (o : NetOut) : List Byte :=
  [0x45, BitVec.ofNat 8 (4 * o.dscp)] ++ toBe 2 (20 + o.data.length + (if o.proto = 17 then 8 else 0)) ++ toBe 2 (o.ident % 65536)
    ++ toBe 2 (if o.ident / 65536 % 2 = 1 then 0x4000 else 0) ++ [BitVec.ofNat 8 o.ttl, BitVec.ofNat 8 o.proto, 0, 0]
    ++ toBe 4 src ++ toBe 4 o.dst

/-- A packet as the MAC sends it, with the checksum of its header (R382); an ARP message has none. -/
def macOut (s : State) (m : RealmId) (o : NetOut) : NetOut :=
  if o.proto = 0 then o
  else
    let o := { o with ident := Config.ipIdent s.now o.dst % 131072 }
    { o with hsum := ipCheck (ipHeader (ipAddr s m o.port) o) }

/-- A port sends while its link is UP; otherwise nothing leaves (R375, R376; log entry 37). -/
def linkOpen (s : State) (m : RealmId) (p : Nat) : Bool := npobj s m o24_LINK_ENABLE p == 1 && npobj s m o24_LINK_STATE p == 1

def sendOut (s : State) (m : RealmId) (o : NetOut) : State :=
  if linkOpen s m o.port then s.modNport m o.port (fun x => { x with sent := [macOut s m o] }) else s
def sendMore (s : State) (m : RealmId) (o : NetOut) : State :=
  if linkOpen s m o.port then s.modNport m o.port (fun x => { x with sent := x.sent ++ [macOut s m o] }) else s
def clearSent (s : State) (m : RealmId) (p : Nat) : State := s.modNport m p (fun x => { x with sent := [] })

/-- A UDP packet with its checksum (R382). -/
def udpOut (s : State) (m : RealmId) (p dst sport dport ttl dscp : Nat) (data : List Byte) : NetOut :=
  let dg := toBe 2 sport ++ toBe 2 dport ++ toBe 2 (data.length + 8) ++ [0, 0] ++ data
  ⟨p, dst, 17, ttl, dscp, sport, dport, udpSum (ipAddr s m p) dst dg, data, 0, 0⟩

/-! ## ARP (R380; RFC 826) -/

/-- The address to resolve for a unicast destination. -/
def nextHop (s : State) (m : RealmId) (p ip : Nat) : Nat :=
  let n := 2 ^ (32 - npobj s m o24_IP_PREFIX p)
  if ip / n = ipAddr s m p / n then ip else npobj s m o24_GATEWAY p

def arpMac (s : State) (m : RealmId) (p ip : Nat) : Option Nat := ((s.nport m p).arp.find? (fun a => a.ip == ip)).map (·.mac)

/-- A destination that can be sent to. -/
def reachable (s : State) (m : RealmId) (p ip : Nat) : Bool :=
  isMulticast ip || (arpMac s m p (nextHop s m p ip)).isSome

def arpPacket (op smac sip tmac tip : Nat) : List Byte :=
  [0, 1, 8, 0, 6, 4] ++ toBe 2 op ++ toBe 6 smac ++ toBe 4 sip ++ toBe 6 tmac ++ toBe 4 tip

def arpOut (s : State) (m : RealmId) (p op tmac tip : Nat) : NetOut :=
  ⟨p, tip, 0, 0, 0, 0, 0, 0, arpPacket op (macAddr s m p) (ipAddr s m p) tmac tip, 0, 0⟩

def sendArp (s : State) (m : RealmId) (p op tmac tip : Nat) : State := sendOut s m (arpOut s m p op tmac tip)

/-- Resolution of an address begins. -/
def askArp (s : State) (m : RealmId) (p ip : Nat) : State :=
  if ip = 0 ∨ (arpMac s m p ip).isSome ∨ (s.nport m p).asking.contains ip then s
  else sendMore (s.modNport m p (fun x => { x with asking := x.asking ++ [ip] })) m (arpOut s m p 1 0 ip)

/-- The cache holds 64 entries; a new one replaces the oldest. -/
def arpStore (s : State) (m : RealmId) (p ip mac : Nat) : State :=
  s.modNport m p (fun x =>
    let l := x.arp.filter (fun a => a.ip != ip)
    { x with arp := (if 64 ≤ l.length then l.drop 1 else l) ++ [⟨ip, mac, s.now⟩], asking := x.asking.filter (· != ip) })

/-- An ARP frame, as RFC 826 receives one: a sender in the cache is updated, one that asks for or answers to the port's address is
entered, and a request for that address is answered. -/
def execArpMessage (e : PEv) (bytes : List Byte) (s : State) : Result :=
  let s := s.at e.t
  if 2 ≤ e.p then .next s
  else
    let s := fromQueue s e.m e.p bytes
    let o := (etherOff s e.m e.p bytes).getD 12
    let a := (bytes.drop (o + 2)).take 28
    let sip := be a 14 4
    let mine := decide (be a 24 4 = ipAddr s e.m e.p ∧ ipAddr s e.m e.p ≠ 0)
    if be a 0 6 ≠ 0x000108000604 then .next s
    else
      let s := if mine || (arpMac s e.m e.p sip).isSome || (s.nport e.m e.p).asking.contains sip then
          arpStore s e.m e.p sip (be a 8 6) else s
      .next (if mine ∧ be a 6 2 = 1 then sendArp s e.m e.p 2 (be a 8 6) sip else s)

def execArpRetry (e : PEv) (ip : Nat) (s : State) : Result :=
  let s := s.at e.t
  .next (if e.p < 2 ∧ (s.nport e.m e.p).asking.contains ip then sendArp s e.m e.p 1 0 ip else s)

/-- The destinations that enabled transmit streams need on a port. -/
def neededHops (s : State) (m : RealmId) (p : Nat) : List Nat :=
  ((List.range 64).filter (fun k => rxo s m o26_300_ENABLE k == 1 && (rxo s m o26_TX_LEGS k == 2 || rxo s m o26_TX_LEGS k == p)
    && !isMulticast (rxo s m o26_DEST k))).map (fun k => nextHop s m p (rxo s m o26_DEST k))

/-- An entry of 300 s age is removed; an address that an enabled stream needs is resolved again. -/
def execArpCacheAgeing (e : PEv) (ip : Nat) (s : State) : Result :=
  let s := s.at e.t
  if e.p < 2 ∧ (s.nport e.m e.p).arp.any (fun a => a.ip == ip && decide (a.made + sec 300 ≤ s.now)) then
    let s := clearSent (s.modNport e.m e.p (fun x => { x with arp := x.arp.filter (fun a => a.ip != ip) })) e.m e.p
    .next (if (neededHops s e.m e.p).contains ip then askArp s e.m e.p ip else s)
  else .next s

/-! ## ICMP echo, IGMPv3 -/

/-- A reply with the request's data, at most 100 per second. -/
def execIcmpEcho (e : PEv) (bytes : List Byte) (s : State) : Result :=
  let s := s.at e.t
  if 2 ≤ e.p then .next s
  else
    let s := fromQueue s e.m e.p bytes
    let i := ipPacket bytes ((etherOff s e.m e.p bytes).getD 12)
    let c := i.drop 20
    let now := s.now / sec 1
    let x := s.nport e.m e.p
    let n := if x.icmpSec = now then x.icmpNum else 0
    if byteAt c 0 = 8 ∧ byteAt c 1 = 0 ∧ ipCheck c = 0 ∧ c.length ≤ 1480 ∧ n < 100 then
      let body := [0, 0, 0, 0] ++ c.drop 4
      let sum := ipCheck body
      let s := s.modNport e.m e.p (fun x => { x with icmpSec := now, icmpNum := n + 1 })
      .next (sendOut s e.m ⟨e.p, be i 12 4, 1, 64, 0, 0, 0, sum, [0, 0] ++ toBe 2 sum ++ c.drop 4, 0, 0⟩)
    else .next s

/-- Group records of an IGMPv3 report (RFC 3376): type, group, sources. -/
def igmpRecord (ty g : Nat) (srcs : List Nat) : List Byte :=
  [BitVec.ofNat 8 ty, 0] ++ toBe 2 srcs.length ++ toBe 4 g ++ srcs.flatMap (toBe 4)

/-- Groups that reports name; all systems is never reported. -/
def reported (l : List (Nat × Nat)) : List Nat := ((l.filter (fun g => g.1 != 0xE0000001)).map (·.1)).eraseDups

/-- A group's sources among memberships: none where one of them has no source (EXCLUDE of none), else those of INCLUDE; an empty
INCLUDE is no membership. -/
def groupSrcs (l : List (Nat × Nat)) (g : Nat) : Option (List Nat) :=
  let srcs := (l.filter (fun x => x.1 == g)).map (·.2)
  if srcs.contains 0 then none else some srcs.eraseDups

def igmpSend (s : State) (m : RealmId) (p dst : Nat) (sum : Nat) (data : List Byte) : State :=
  sendMore s m ⟨p, dst, 2, 64, 0, 0, 0, sum, data, 0, 0⟩

/-- An IGMPv3 report. -/
def igmpReport (s : State) (m : RealmId) (p : Nat) (rs : List (List Byte)) : State :=
  let body := [0, 0] ++ toBe 2 rs.length ++ rs.flatten
  let sum := ipCheck ([0x22, 0, 0, 0] ++ body)
  igmpSend s m p 0xE0000016 sum ([0x22, 0] ++ toBe 2 sum ++ body)

/-- A message of the older versions about one group: 0x12 and 0x16 report it, 0x17 leaves it. -/
def igmpOld (s : State) (m : RealmId) (p ty dst g : Nat) : State :=
  let sum := ipCheck ([BitVec.ofNat 8 ty, 0, 0, 0] ++ toBe 4 g)
  igmpSend s m p dst sum ([BitVec.ofNat 8 ty, 0] ++ toBe 2 sum ++ toBe 4 g)

/-- The version of a port's host: that of the oldest querier heard within the older-version timeout of RFC 3376, 260 s with its
default values. -/
def igmpVersion (s : State) (m : RealmId) (p : Nat) : Nat :=
  let within := fun (t : Option Time) => match t with
    | some t => decide (s.now < t + sec 260)
    | none => false
  if within (s.nport m p).igmpV1 then 1 else if within (s.nport m p).igmpV2 then 2 else 3

/-- The current state of a group: INCLUDE of its sources, or EXCLUDE of none. -/
def currentRecord (l : List (Nat × Nat)) (g : Nat) : List Byte :=
  match groupSrcs l g with
  | none => igmpRecord 2 g []
  | some srcs => igmpRecord 1 g srcs

/-- The answer to a query of one group's sources. -/
def sourceRecord (l : List (Nat × Nat)) (g : Nat) (asked : List Nat) : List (List Byte) :=
  match groupSrcs l g with
  | none => [igmpRecord 1 g asked]
  | some srcs =>
    let a := srcs.filter asked.contains
    if a = [] then [] else [igmpRecord 1 g a]

/-- A query taken from the queue: a general one is answered with every group, one of a group with that group. A query of 8 bytes
is from an IGMPv1 or IGMPv2 querier, and starts its compatibility mode (RFC 3376). -/
def execIgmpQuery (e : PktEv) (s : State) : Result :=
  let bytes := e.bytes
  let s := s.at e.t
  if 2 ≤ e.p then .next s
  else
    let s := clearSent (fromQueue s e.m e.p bytes) e.m e.p
    let c := (ipPacket bytes ((etherOff s e.m e.p bytes).getD 12)).drop 20
    if byteAt c 0 ≠ 0x11 ∨ c.length < 8 ∨ ipCheck c ≠ 0 then .next s
    else
      let s := if c.length = 8 ∧ byteAt c 1 = 0 then s.modNport e.m e.p (fun x => { x with igmpV1 := some s.now })
        else if c.length = 8 then s.modNport e.m e.p (fun x => { x with igmpV2 := some s.now }) else s
      let g := be c 4 4
      let l := joined s e.m e.p
      let gs := (reported l).filter (fun x => g == 0 || x == g)
      let v := igmpVersion s e.m e.p
      if v < 3 then .next (gs.foldl (fun s x => igmpOld s e.m e.p (if v = 1 then 0x12 else 0x16) x x) s)
      else
        let n := be c 10 2
        let asked := (List.range n).map (fun k => be c (12 + 4 * k) 4)
        let rs := if g = 0 ∨ n = 0 then gs.map (currentRecord l) else gs.flatMap (fun x => sourceRecord l x asked)
        .next (if rs = [] then s else igmpReport s e.m e.p rs)

/-- The records of a change of a group's state (RFC 3376); a change that leaves the state as it was reports it as it is. -/
def changeRecords (a b : List (Nat × Nat)) (g : Nat) : List (List Byte) :=
  match groupSrcs a g, groupSrcs b g with
  | none, none => [igmpRecord 2 g []]
  | some _, none => [igmpRecord 4 g []]
  | none, some y => [igmpRecord 3 g y]
  | some x, some y =>
    let allow := y.filter (fun z => !x.contains z)
    let block := x.filter (fun z => !y.contains z)
    if allow = [] ∧ block = [] then [igmpRecord 1 g y]
    else (if allow = [] then [] else [igmpRecord 5 g allow]) ++ (if block = [] then [] else [igmpRecord 6 g block])

/-- Reports when a stream has joined or left its groups. -/
def igmpChange (s : State) (m : RealmId) (k : Nat) (join : Bool) : State :=
  let one := fun (s : State) (p g src : Nat) =>
    if isMulticast g then
      let now := joined s m p
      let before := if join then now.erase (g, src) else (g, src) :: now
      let v := igmpVersion s m p
      if v = 3 then igmpReport s m p (changeRecords before now g)
      else if join then igmpOld s m p (if v = 1 then 0x12 else 0x16) g g
      else if v = 2 ∧ (reported now).contains g = false then igmpOld s m p 0x17 0xE0000002 g
      else s
    else s
  one (one s 0 (rxo s m o26_GROUP_A k) (rxo s m o26_SOURCE_A k)) 1 (rxo s m o26_GROUP_B k) (rxo s m o26_SOURCE_B k)

end Sys2Proof.Machine
end

