-- ==== Sys2Proof/Machine/Stream.lean ====
section
/-!
DEFINITION. Media streams (11 R394 to R405; 17 R569): enabling, reception and delivery, transmission, and the dispatch of
received frames (11 R378 to R381).
MARKED CHOICES of this file (DESIGN CHOICE, DEDUCED or PRESUMED): log entries 2 and 38.
-/
namespace Sys2Proof.Machine

/-! ## Parameters -/

/-- S of Table 11-4. -/
def packetS (ptime rate : Nat) : Nat :=
  (if ptime = 0 then 6 else if ptime = 1 then 12 else 48) * (if 176400 ≤ rate then 4 else if 88200 ≤ rate then 2 else 1)

def rxS (s : State) (m : RealmId) (k : Nat) : Nat := packetS (rxo s m o26_PTIME k) (s.rate m)
def txS (s : State) (m : RealmId) (k : Nat) : Nat := packetS (rxo s m o26_300_PTIME k) (s.rate m)
/-- D: PRES_OFFSET, or 3 × S (R399). -/
def presD (s : State) (m : RealmId) (k : Nat) : Nat :=
  let v := rxo s m o26_PRES_OFFSET k
  if v = 0 then 3 * rxS s m k else v
/-- Bytes of a sample: L24 or L16. -/
def sampleBytes (enc : Nat) : Nat := if enc = 0 then 3 else 2

def State.rxst (s : State) (m : RealmId) (k : Nat) : Rx := tget Rx.reset (s.net m).rx k
def State.modRx (s : State) (m : RealmId) (k : Nat) (f : Rx → Rx) : State :=
  s.modNet m (fun n => { n with rx := tmod Rx.reset n.rx k f })
def State.txst (s : State) (m : RealmId) (k : Nat) : Tx := tget Tx.reset (s.net m).tx k
def State.modTx (s : State) (m : RealmId) (k : Nat) (f : Tx → Tx) : State :=
  s.modNet m (fun n => { n with tx := tmod Tx.reset n.tx k f })

/-- A change of a stream's STATE. -/
def setStream (s : State) (m : RealmId) (key k v : Nat) : State :=
  if s.onat m (key + 16 * k) = v then s else (s.oput m (key + 16 * k) (v : Nat)).irq m 21

/-! ## Enabling (R403 to R405) -/

def rxOn (s : State) (m : RealmId) (k : Nat) : Bool := rxo s m o26_ENABLE k == 1
def txOn (s : State) (m : RealmId) (k : Nat) : Bool := rxo s m o26_300_ENABLE k == 1
def streams : List Nat := List.range 64

/-- The legs of a receive stream: port, group, source. -/
def rxLegs (s : State) (m : RealmId) (k : Nat) : List (Nat × Nat × Nat) :=
  [(0, rxo s m o26_GROUP_A k, rxo s m o26_SOURCE_A k), (1, rxo s m o26_GROUP_B k, rxo s m o26_SOURCE_B k)].filter
    (fun l => l.2.1 != 0)

/-- The ports of a transmit stream. -/
def txPorts (s : State) (m : RealmId) (k : Nat) : List Nat :=
  let v := rxo s m o26_TX_LEGS k
  if v = 0 then [0] else if v = 1 then [1] else [0, 1]

def bufWords (s : State) (m : RealmId) (k : Nat) : Nat := rxo s m o26_CH k * (presD s m k + 2 * rxS s m k)

/-- The first condition of Table 11-5 that holds. -/
def rxCode (s : State) (m : RealmId) (k : Nat) : Nat :=
  let ch := rxo s m o26_CH k
  let first := rxo s m o26_FIRST k
  let others := streams.filter (fun j => j != k && rxOn s m j)
  let legs := rxLegs s m k
  if 1440 < ch * rxS s m k * sampleBytes (rxo s m o26_ENCODING k) then 1
  else if 512 < first + ch then 2
  else if others.any (fun j => decide (first < rxo s m o26_FIRST j + rxo s m o26_CH j ∧ rxo s m o26_FIRST j < first + ch)) then 3
  else if legs.isEmpty then 4
  else if legs.any (fun l => ipAddr s m l.1 == 0) then 5
  else if rxo s m o26_PRES_OFFSET k ≠ 0 ∧ rxo s m o26_PRES_OFFSET k < 2 * rxS s m k then 6
  else if others.any (fun j => rxo s m o26_UDP_PORT j == rxo s m o26_UDP_PORT k && (rxLegs s m j).any (legs.contains ·)) then 7
  else if 65536 * s.onat m o24_NET_BANKS < bufWords s m k + (others.map (bufWords s m)).foldl (· + ·) 0 then 8
  else 0

def txCode (s : State) (m : RealmId) (k : Nat) : Nat :=
  let ch := rxo s m o26_300_CH k
  if 1440 < ch * txS s m k * sampleBytes (rxo s m o26_300_ENCODING k) then 1
  else if 512 < rxo s m o26_300_FIRST k + ch then 2
  else if (txPorts s m k).any (fun p => ipAddr s m p == 0) then 5
  else 0

def streamCode (s : State) (m : RealmId) (tx : Bool) (k : Nat) : Nat := if tx then txCode s m k else rxCode s m k
def streamOn (s : State) (m : RealmId) (tx : Bool) (k : Nat) : Bool := if tx then txOn s m k else rxOn s m k

def streamEnableErr (s : State) (m : RealmId) (tx : Bool) (k v : Nat) : Option Nat :=
  if v = 1 ∧ streamOn s m tx k = false ∧ streamCode s m tx k ≠ 0 then some 0x16 else none

/-- ERROR of an enable that is refused. -/
def streamRefused (s : State) (m : RealmId) (tx : Bool) (k v : Nat) : State :=
  if (streamEnableErr s m tx k v).isSome then
    s.oput m ((if tx then o26_400_ERROR else o26_ERROR) + 16 * k) (streamCode s m tx k : Nat) else s

/-- An accepted write of ENABLE. -/
def streamEnableDo (s : State) (m : RealmId) (tx : Bool) (k v : Nat) : State :=
  if v = 1 then
    if streamOn s m tx k then s
    else if tx then
      let s := (s.oput m (o26_300_ENABLE + 16 * k) 1).oput m (o26_400_ERROR + 16 * k) 0
      let s := setStream (s.modTx m k (fun x => { x with rows := [], stop := false })) m o26_400_STATE k 1
      let dest := rxo s m o26_DEST k
      if isMulticast dest then s else (txPorts s m k).foldl (fun s p => askArp s m p (nextHop s m p dest)) s
    else
      let s := (s.oput m (o26_ENABLE + 16 * k) 1).oput m (o26_ERROR + 16 * k) 0
      igmpChange (setStream (s.modRx m k (fun _ => Rx.reset)) m o26_STATE k 1) m k true
  else if streamOn s m tx k = false then s
  else if tx then
    (s.oput m (o26_300_ENABLE + 16 * k) 0).modTx m k (fun x => { x with stop := true })
  else
    igmpChange ((s.oput m (o26_ENABLE + 16 * k) 0).modRx m k (fun x => { x with stop := true })) m k false

/-- A configuration object of an enabled stream is busy (R405); its ENABLE is not one. -/
def streamObjectErr (s : State) (m : RealmId) (index elem : Nat) : Option Nat :=
  if elem = 0 then none
  else if 0x100 ≤ index ∧ index < 0x140 ∧ rxOn s m (index - 0x100) then some 0x18
  else if 0x300 ≤ index ∧ index < 0x340 ∧ txOn s m (index - 0x300) then some 0x18
  else none

def anyStream (s : State) (m : RealmId) : Bool := streams.any (fun k => rxOn s m k || txOn s m k)

/-- The banks that a value of NET_BANKS holds. -/
def netSet (v : Nat) : List Nat := (List.range v).map (fun j => 63 - j)

def netBanksErr (s : State) (m : RealmId) (v : Nat) : Option Nat :=
  if rxEnabled s m then some 0x18
  else if ((netSet v).filter (fun b => netBank s m b = false)).any (bankUsed (s.frame m)) then some 0x18
  else none

def holdNetBanks (s : State) (m : RealmId) : State :=
  (netSet (s.onat m o24_NET_BANKS)).foldl (fun s b => deepOnNow s m b) s

def netBanksDo (s : State) (m : RealmId) (v : Nat) : State := holdNetBanks (s.oput m o24_NET_BANKS (v : Nat)) m

/-! ## Reception (R398 to R402) -/

/-- A packet's RTP payload without CSRCs, extension and padding, as its length and where it starts. -/
def rtpBody (r : List Byte) : Option (List Byte) :=
  let b0 := byteAt r 0
  let o := 12 + 4 * (b0 % 16)
  let ext := if b0 / 16 % 2 = 1 then 4 + 4 * be r (o + 2) 2 else 0
  let pad := if b0 / 32 % 2 = 1 then byteAt r (r.length - 1) else 0
  if r.length < o + ext + pad then none else some ((r.drop (o + ext)).take (r.length - o - ext - pad))

/-- The stream takes packets of this address, source and UDP port on a port. -/
def rxBelongs (s : State) (m : RealmId) (p dst src dport k : Nat) : Bool :=
  rxOn s m k && rxo s m o26_UDP_PORT k == dport
    && (rxLegs s m k).any (fun l => l.1 == p && (dst == l.2.1 || dst == ipAddr s m p) && (l.2.2 == 0 || l.2.2 == src))

/-- Words of the sample times of a payload, top bits first (R308). -/
def rtpWords (enc ch n : Nat) (b : List Byte) : List (List Lane) :=
  let w := sampleBytes enc
  (List.range n).map (fun k => (List.range ch).map (fun c =>
    mkLane (BitVec.ofNat 32 (be b ((k * ch + c) * w) w * 2 ^ (32 - 8 * w)))))

/-- The value congruent to `v` modulo 2^32 that lies within ±2^31 of `near`. -/
def nearMod (v : Int) (near : Nat) : Int :=
  let d := (v - near) % 4294967296
  near + (if d < 2147483648 then d else d - 4294967296)

/-- ARRIVAL_MARGIN, the least over the last 1 s. -/
def noteMargin (s : State) (m : RealmId) (k : Nat) (x : Int) : State :=
  let l := (s.now, x) :: (s.rxst m k).margins.filter (fun e => decide (s.now ≤ e.1 + sec 1))
  let least := l.foldl (fun a e => if e.2 < a then e.2 else a) x
  (s.modRx m k (fun r => { r with margins := l })).oput m (o26_ARRIVAL_MARGIN + 16 * k)
    (if least < -2147483648 then -2147483648 else if 2147483647 < least then 2147483647 else least)

/-- A packet that belongs to a stream, complete at the depacketiser. -/
def rxPacket (s : State) (m : RealmId) (p k : Nat) (r : List Byte) : State :=
  let n := rxS s m k
  let ch := rxo s m o26_CH k
  let enc := rxo s m o26_ENCODING k
  let ssrc := rxo s m o26_SSRC k
  let discard := fun (s : State) => s.bump m (o26_RX_DISCARDS + 16 * k) 1
  match rtpBody r with
  | none => discard s
  | some b =>
    if byteAt r 0 / 64 ≠ 2 ∨ byteAt r 1 % 128 ≠ rxo s m o26_PT k ∨ (ssrc ≠ 0 ∧ be r 8 4 ≠ ssrc) ∨ r.length < 12
        ∨ b.length ≠ ch * n * sampleBytes enc then discard s
    else
      match (s.net m).media with
      | none => s
      | some mc =>
        let d := presD s m k
        let due := nearMod ((be r 4 4 : Int) - rxo s m o26_RTP_OFFSET k) mc + d
        let x := ((s.frame m).tickAt : Int) + (due - mc) * periodPs (s.rate m) - s.now
        if (mc + d + 2 * n : Int) < due then discard s
        else if due ≤ mc then (noteMargin s m k (x / 1000)).bump m (o26_RX_LATE + 16 * k) 1
        else
          let s := noteMargin s m k (x / 1000)
          let seq := be r 2 2
          let stamp := be r 4 4
          let both := decide (2 ≤ (rxLegs s m k).length)
          let mark := fun (q : RxPkt) => if q.seq == seq && q.stamp == stamp then
            { q with legA := q.legA || p == 0, legB := q.legB || p == 1 } else q
          if both && (s.rxst m k).pkts.any (fun q => q.seq == seq && q.stamp == stamp) then
            (s.modRx m k (fun x => { x with pkts := x.pkts.map mark })).bump m (o26_RX_DUPLICATES + 16 * k) 1
          else
            let rows := rtpWords enc ch n b
            s.modRx m k (fun x =>
              { x with pkts := x.pkts ++ [(⟨seq, stamp, due.toNat, p == 0, p == 1⟩ : RxPkt)],
                       buf := rows.foldl (fun (a : Tbl (List Lane) × Nat) w => (tput [] a.1 a.2 w, a.2 + 1)) (x.buf, due.toNat) |>.1 })

/-- The sample times of a stream at the start-of-frame handoff of a frame. -/
def rxTick (s : State) (m : RealmId) (k : Nat) : State :=
  let x := s.rxst m k
  let st := s.onat m (o26_STATE + 16 * k)
  let n := rxS s m k
  if x.stop then setStream (s.modRx m k (fun _ => Rx.reset)) m o26_STATE k 0
  else if st = 0 then s
  else
    match (s.net m).media with
    | none => setStream (s.modRx m k (fun _ => Rx.reset)) m o26_STATE k 1
    | some mc =>
      let both := decide (2 ≤ (rxLegs s m k).length)
      let passed := x.pkts.filter (fun q => decide (q.due ≤ mc))
      let missA := if both then (passed.filter (fun q => !q.legA)).length else 0
      let missB := if both then (passed.filter (fun q => !q.legB)).length else 0
      let s := s.modRx m k (fun x => { x with pkts := x.pkts.filter (fun q => decide (mc < q.due)), fade := fadeStep x.fade,
                                              buf := x.buf.filter (fun e => decide (mc ≤ e.1)) })
      let s := if missA = 0 then s else s.bump m (o26_LEG_MISSES_A + 16 * k) missA
      let s := if missB = 0 then s else s.bump m (o26_LEG_MISSES_B + 16 * k) missB
      let fade := fadeStep x.fade
      match tget [] x.buf mc with
      | [] =>
        if st = 1 then s
        else
          let lost := decide ((x.miss + 1) % n = 0)
          let s := if lost then s.bump m (o26_RX_LOST + 16 * k) 1 else s
          let s := if lost then
              (rxLegs s m k).foldl (fun s l => s.bump m ((if l.1 = 0 then o26_LEG_MISSES_A else o26_LEG_MISSES_B) + 16 * k) 1) s
            else s
          if st = 2 ∧ x.miss < rxo s m o26_CONCEAL k * n then
            s.modRx m k (fun x => { x with miss := x.miss + 1, shown := fadeWords fade x.held })
          else if st = 2 then
            let s := (setStream s m o26_STATE k 3).raise m 0x2601 (o26_STATE + 16 * k)
            s.modRx m k (fun x => { x with miss := x.miss + 1, fade := some (false, 1), shown := fadeWords (some (false, 1)) x.held })
          else s.modRx m k (fun x => { x with miss := x.miss + 1, shown := fadeWords fade x.held })
      | w :: ws =>
        let fade := if st = 3 then some (true, 1) else fade
        let s := s.modRx m k (fun x => { x with miss := 0, held := w :: ws, fade := fade, shown := fadeWords fade (w :: ws) })
        setStream s m o26_STATE k 2

/-- The word of a network input channel. -/
def netWord (s : State) (m : RealmId) (c : Nat) : Lane :=
  match streams.find? (fun k => decide (s.onat m (o26_STATE + 16 * k) ≠ 0) && decide (rxo s m o26_FIRST k ≤ c)
      && decide (c < rxo s m o26_FIRST k + rxo s m o26_CH k)) with
  | some k => (s.rxst m k).shown.getD (c - rxo s m o26_FIRST k) zeroLane
  | none => zeroLane

/-! ## Transmission (R396, R397; 17 R569) -/

/-- Packets keep to multiples of S in these modes (17 R569). -/
def pairedModes (x : RMode) : Bool := x == .active || x == .standby || x == .takeover

/-- In SAFE everything but mode requests works as in the mode left (08 R295). -/
def worksAs (r : Realm) : RMode := if r.mode = .safe then r.safeFrom else r.mode

/-- RTP header and samples. -/
def rtpPacket (s : State) (m : RealmId) (k first seq : Nat) (rows : List (List Lane)) : List Byte :=
  let w := sampleBytes (rxo s m o26_300_ENCODING k)
  let ssrc := rxo s m o26_300_SSRC k
  [0x80, BitVec.ofNat 8 (rxo s m o26_300_PT k)] ++ toBe 2 seq ++ toBe 4 (first + rxo s m o26_300_RTP_OFFSET k) ++ toBe 4 ssrc
    ++ rows.flatMap (fun r => r.flatMap (fun l => toBe w (l.data.toNat / 2 ^ (32 - 8 * w))))

/-- A packet joins the queue of each of its ports whose link is up. -/
def queuePacket (s : State) (m : RealmId) (k first seq : Nat) (rows : List (List Lane)) : State :=
  let q : MediaPkt := ⟨k, rxo s m o26_DEST k, seq, first, rtpPacket s m k first seq rows⟩
  (txPorts s m k).foldl (fun s p =>
    if npobj s m o24_LINK_STATE p = 1 then s.modNport m p (fun x => { x with media := x.media ++ [q] }) else s) s

/-- The words of a frame, as a stream converts them, and how many were limited. -/
def txRow (s : State) (m : RealmId) (k : Nat) (outs : Tbl Lane) : List Lane × Nat :=
  let len := 8 * sampleBytes (rxo s m o26_300_ENCODING k)
  let os := (List.range (rxo s m o26_300_CH k)).map (fun c =>
    convertWord len (tget zeroLane outs (rxo s m o26_300_FIRST k + c)))
  (os.map (fun o => if laneOk o.lane then o.lane else zeroLane), (os.filter (·.sat)).length)

/-- Repeated words that fail their check are sent as zero (08 R290). -/
def repeatZeros (s : State) (m : RealmId) (k : Nat) (outs : Tbl Lane) : State :=
  (List.range (rxo s m o26_300_CH k)).foldl (fun s c =>
    let ch := rxo s m o26_300_FIRST k + c
    if laneOk (tget zeroLane outs ch) then s else s.bump m (chanKey 0x1A (0x1000 + ch) 4) 1) s

/-- A transmit stream at the tick after the frame of `outs`; `mc` is the media count of the tick. -/
def txTick (s : State) (m : RealmId) (k : Nat) : State :=
  let x := s.txst m k
  let st := s.onat m (o26_400_STATE + 16 * k)
  if x.stop then
    setStream (s.modTx m k (fun x => { Tx.reset with seq := x.seq })) m o26_400_STATE k 0
  else if st = 0 then s
  else
    match (s.net m).media with
    | none => setStream (s.modTx m k (fun x => { x with rows := [] })) m o26_400_STATE k 1
    | some mc =>
      if st = 1 then
        (if (txPorts s m k).all (fun p => reachable s m p (rxo s m o26_DEST k)) then setStream s m o26_400_STATE k 2 else s)
      else
        match (s.net m).outs with
        | none => s
        | some outs =>
          let n := txS s m k
          let paired := pairedModes (worksAs (s.realm m))
          let rows := if paired ∧ x.first % n ≠ 0 then [] else x.rows
          if rows = [] ∧ paired ∧ mc % n ≠ 0 then s.modTx m k (fun x => { x with rows := [] })
          else
            let (w, clips) := txRow s m k outs
            let s := if clips = 0 then s else s.bump m (o26_TX_CLIPS + 16 * k) clips
            let s := repeatZeros s m k outs
            let first := if rows = [] then mc else x.first
            let rows := rows ++ [w]
            if rows.length < n then s.modTx m k (fun x => { x with rows := rows, first := first })
            else
              let (d, s') := s.draw
              let free := x.seq.isNone && !paired
              let s := if free then s' else s
              let seq := if paired then first / n % 65536 else match x.seq with
                | some q => (q + 1) % 65536
                | none => d % 65536
              let s := s.modTx m k (fun x => { x with rows := [], seq := some seq })
              queuePacket s m k first seq rows

/-- A packet leaves after a silencing interval has begun 200 ns before. -/
def mediaSilenced (s : State) (m : RealmId) : Bool :=
  let o := (s.realm m).out
  silenced o && decide (o.silentAt + ns 200 < s.now)

/-- The first media packet of a port's queue leaves. -/
def execPacketDeparture (e : PEv) (s : State) : Result :=
  let s := s.at e.t
  match (s.nport e.m e.p).media with
  | [] => .next s
  | q :: rest =>
    if linkOpen s e.m e.p = false then .next s
    else
    let s := s.modNport e.m e.p (fun x => { x with media := rest })
    if 2 ≤ e.p ∨ realmDrives (s.realm e.m) = false then .next s
    else
      let (d, s) := s.draw
      let data := if mediaSilenced s e.m then q.data.take 12 ++ List.replicate (q.data.length - 12) 0 else q.data
      let s := sendOut s e.m (udpOut s e.m e.p q.dst (d % 65536) (rxo s e.m o26_300_UDP_PORT q.stream)
        (rxo s e.m o26_TX_TTL q.stream) (npobj s e.m o24_DSCP_MEDIA e.p) data)
      .next (s.oput e.m (o26_TX_PACKETS + 16 * q.stream)
        (((s.onat e.m (o26_TX_PACKETS + 16 * q.stream) + 1) % 4294967296 : Nat) : Int))

/-! ## Received frames (R378 to R381, R392) -/

/-- The timestamp of an event message: the timebase, within ±5 ns (R385), in ns × 2^16. -/
def stampNow (s : State) (m : RealmId) : Int × State :=
  let (d, s) := s.draw
  (((s.tbNs m : Int) + (d % 11 : Nat) - 5) * 65536, s)

/-- A UDP datagram: PTP, media, Biluno or none of them. -/
def rxUdp (s : State) (m : RealmId) (p : Nat) (f i : List Byte) : State :=
  let dg := i.drop 20
  let dport := be dg 2 2
  let ks := streams.filter (rxBelongs s m p (be i 16 4) (be i 12 4) dport)
  if dport = 319 ∨ dport = 320 then
    let ty := byteAt dg 8 % 16
    if ty = 0xC ∨ ty = 0xD ∨ dg.length < 42 then dropFrame s m p
    else if dport = 319 then
      let (st, s) := stampNow s m
      toKeeper (s.irq m 14) m p st f
    else toKeeper s m p 0 f
  else if ks ≠ [] then ks.foldl (fun s k => rxPacket s m p k (dg.drop 8)) s
  else if dport = s.onat m o28_BILUNO_PORT then toKeeper s m p 0 f
  else dropFrame s m p

/-- A frame, preamble apart and FCS included, has been received. -/
def execRxFrame (e : PEv) (bytes : List Byte) (s : State) : Result :=
  let s := s.at e.t
  let m := e.m
  let p := e.p
  if 2 ≤ p ∨ npobj s m o24_LINK_STATE p ≠ 1 then .next s
  else if le bytes (bytes.length - 4) 4 ≠ fcs32 (bytes.take (bytes.length - 4)) then
    .next (s.bump m (o24_FCS_ERRORS + 16 * p) 1)
  else
    match frameOk s m p bytes with
    | none => .next (dropFrame s m p)
    | some o =>
      if be bytes o 2 = 0x0806 then .next (toKeeper s m p 0 bytes)
      else
        let i := ipPacket bytes o
        let proto := byteAt i 9
        if ipOk s m p i = false then .next (dropFrame s m p)
        else if proto = 1 then
          .next (if byteAt i 20 = 8 ∧ i.length ≤ 1500 then toKeeper s m p 0 bytes else dropFrame s m p)
        else if proto = 2 then .next (toKeeper s m p 0 bytes)
        else if proto = 17 then .next (rxUdp s m p bytes i)
        else .next (dropFrame s m p)

end Sys2Proof.Machine
end

