-- ==== Sys2Proof/Machine/Ptp.lean ====
section
/-!
DEFINITION. The timebase and PTP (11 R383 to R393): the servo and its states, event messages, Announce messages and the
best-master choice, messages sent, whole seconds, the PPS input, and links that go down.
MARKED CHOICES of this file (DESIGN CHOICE, DEDUCED or PRESUMED): log entries 2, 6, 39 and 40.
-/
namespace Sys2Proof.Machine

def State.ptp (s : State) (m : RealmId) : PtpSt := (s.net m).ptp
def State.modPtp (s : State) (m : RealmId) (f : PtpSt → PtpSt) : State := s.modNet m (fun n => { n with ptp := f n.ptp })
def tbState (s : State) (m : RealmId) : Nat := s.onat m o24_TB_STATE

/-! ## The counter (R383, R384) -/

/-- The counter in units of 2^−32 ns. -/
def tbUnits (b : Tb) (now : Time) : Nat :=
  b.base + (now * 49152 / 1000000000 - b.at0 * 49152 / 1000000000) * (20 * 4294967296 + b.rate)

/-- A new RATE_FRAC, within the servo's limits. -/
def setRate (s : State) (m : RealmId) (v : Nat) : State :=
  let v := Nat.max Config.rateFracMin (Nat.min v Config.rateFracMax)
  (s.modRealm m (fun r => { r with tb := ⟨tbUnits r.tb s.now, s.now, v⟩ })).oput m o24_RATE_FRAC (v : Nat)

/-- A step of the counter by a number of ns × 2^16. -/
def stepTb (s : State) (m : RealmId) (d : Int) : State :=
  s.modRealm m (fun r => { r with tb := ⟨((tbUnits r.tb s.now : Int) + d * 65536).toNat, s.now, r.tb.rate⟩ })

/-- The counter set to a time at the next XO period (R389). -/
def setTb (s : State) (m : RealmId) (nanos : Nat) : State :=
  (s.modRealm m (fun r => { r with tb := ⟨nanos * 4294967296, s.now + 20346, r.tb.rate⟩ })).oput m o24_PTP_TIME (tsInt nanos)

/-! ## States (Table 11-2) -/

/-- PTP_STATE of a state of the timebase: DISABLED, LISTENING, UNCALIBRATED, SLAVE, MASTER. -/
def ptpState (s : State) (m : RealmId) : Nat :=
  let st := tbState s m
  if s.onat m o24_PTP_ENABLE = 0 then 0
  else if st = 4 then 4
  else if (s.ptp m).master.isNone then 1
  else if st = 2 ∧ (s.ptp m).trial = none then 3 else 2

def showPtp (s : State) (m : RealmId) : State := s.oput m o24_PTP_STATE (ptpState s m : Nat)

def setTbState (s : State) (m : RealmId) (st : Nat) : State :=
  let s := s.modPtp m (fun x => { x with good := 0, bad := 0, stepped := false, trial := none, rates := if st = 2 then [] else x.rates })
  let s := if tbState s m = st then s else (s.oput m o24_TB_STATE (st : Nat)).raise m 0x2403 o24_TB_STATE
  let s := if st ≠ 2 ∧ st ≠ 4 ∧ s.onat m o22_PPS_OUT_MODE = 2 then s.modClock m (fun c => { c with ppsHigh := none }) else s
  publishReady (showPtp s m) m

/-- The mean of the last 64 values of RATE_FRAC in LOCKED (R388). -/
def holdRate (s : State) (m : RealmId) : State :=
  let l := (s.ptp m).rates
  if l = [] then s else setRate s m (l.foldl (· + ·) 0 / l.length)

/-- LOCKED, or HOLDOVER on a master's return: its first 4 offsets decide (R387, R388). -/
def startTrial (s : State) (m : RealmId) : State :=
  showPtp ((holdRate s m).modPtp m (fun x => { x with trial := some 0 })) m

/-- Every identity that the grandmaster takes is counted (R388). -/
def gmIdentity (s : State) (m : RealmId) (id : Nat) : State :=
  if s.onat m o24_GM_IDENTITY = id then s
  else ((s.oput m o24_GM_IDENTITY (id : Nat)).bump m o24_GM_CHANGES 1).raise m 0x2402 o24_GM_IDENTITY

/-- EUI-64 of NETA's MAC address (R377). -/
def clockId (s : State) (m : RealmId) : Nat :=
  let a := macAddr s m 0
  a / 2 ^ 24 * 2 ^ 40 + 0xFFFE * 2 ^ 24 + a % 2 ^ 24

/-- A master is selected. -/
def selectMaster (s : State) (m : RealmId) (x : PtpData) : State :=
  let changed := s.onat m o24_GM_IDENTITY ≠ x.gm
  let had := (s.ptp m).master.isSome
  let s := gmIdentity (s.modPtp m (fun p => { p with master := some x })) m x.gm
  let st := tbState s m
  if st = 0 ∨ st = 4 then setTbState s m 1
  else if (st = 2 ∧ changed) ∨ (st = 3 ∧ (changed ∨ !had)) then startTrial s m
  else showPtp s m

/-- The realm's own clock is selected. -/
def becomeGm (s : State) (m : RealmId) : State :=
  setTbState (gmIdentity (s.modPtp m (fun p => { p with master := none })) m (clockId s m)) m 4

/-- No Announce within the timeout, on any port that counts. -/
def masterLost (s : State) (m : RealmId) : State :=
  let st := tbState s m
  let s := s.modPtp m (fun p => { p with master := none, trial := none })
  if st = 2 then
    let s := holdRate s m
    setTbState s m 3
  else
    let s := if st = 1 then setTbState s m 0 else showPtp s m
    if s.onat m o24_SLAVE_ONLY = 0 ∧ st ≠ 4 then becomeGm s m else s

/-- PTP_ENABLE takes a value. -/
def ptpEnableDo (s : State) (m : RealmId) (v : Nat) : State :=
  let s := s.oput m o24_PTP_ENABLE (v : Nat)
  if v = 0 then setTbState (s.modPtp m (fun p => { p with foreign := [], master := none, sync := none })) m 0 else showPtp s m

/-! ## Messages (IEEE 1588-2019) -/

/-- The PTP message of a frame: the payload of its UDP datagram. -/
def ptpMsg (s : State) (m : RealmId) (p : Nat) (f : List Byte) : List Byte :=
  (ipPacket f ((etherOff s m p f).getD 12)).drop 28

def ptpType (b : List Byte) : Nat := byteAt b 0 % 16
def ptpSrc (b : List Byte) : Nat := be b 20 10
def ptpSeq (b : List Byte) : Nat := be b 30 2
def twoStep (b : List Byte) : Bool := byteAt b 6 / 2 % 2 == 1
/-- correctionField, in ns × 2^16. -/
def ptpCorr (b : List Byte) : Int := (BitVec.ofNat 64 (be b 8 8)).toInt
/-- A timestamp field, in ns × 2^16. -/
def ptpTs (b : List Byte) (o : Nat) : Int := ((be b o 6 * 1000000000 + be b (o + 6) 4 : Nat) : Int) * 65536
def portId (s : State) (m : RealmId) : Nat := clockId s m * 65536 + 1

/-- Version 2 messages of the realm's domain from another clock. -/
def ptpOurs (s : State) (m : RealmId) (b : List Byte) : Bool :=
  byteAt b 1 % 16 == 2 && byteAt b 4 == s.onat m o24_PTP_DOMAIN && ptpSrc b / 65536 != clockId s m
    && decide (44 ≤ b.length) && s.onat m o24_PTP_ENABLE == 1

def ptpHeader (s : State) (m : RealmId) (ty len flags : Nat) (corr : Int) (seq : Nat) (interval : Int) : List Byte :=
  [BitVec.ofNat 8 ty, 2] ++ toBe 2 len ++ [BitVec.ofNat 8 (s.onat m o24_PTP_DOMAIN), 0] ++ toBe 2 flags
    ++ toBe 8 (BitVec.ofInt 64 corr).toNat ++ [0, 0, 0, 0] ++ toBe 10 (portId s m) ++ toBe 2 seq
    ++ [0, BitVec.ofInt 8 interval]

def tsField (v : Int) : List Byte :=
  let n := (v / 65536).toNat
  toBe 6 (n / 1000000000) ++ toBe 4 (n % 1000000000)

/-- The two octets that keep the checksum of the message computed before insertion valid (R391). -/
def padOctets (before after : List Byte) : List Byte :=
  toBe 2 ((65535 + foldSum 4 (ipSum before) % 65536 - foldSum 4 (ipSum after) % 65536) % 65535)

/-- An event message with what is inserted into it as it leaves, and its checksum. -/
def sendEvent (s : State) (m : RealmId) (p dst ttl : Nat) (before after : List Byte) : State :=
  (sendOut s m (udpOut s m p dst 319 319 ttl (npobj s m o24_DSCP_PTP p) (after ++ padOctets before after))).irq m 14

def sendGeneral (s : State) (m : RealmId) (p dst ttl : Nat) (b : List Byte) : State :=
  sendOut s m (udpOut s m p dst 320 320 ttl (npobj s m o24_DSCP_PTP p) b)

def groupPtp : Nat := 0xE0000181
def groupPeer : Nat := 0xE000006B

/-! ## Offsets (R387) -/

/-- An offset in ns × 2^16 for the servo. -/
def useOffset (s : State) (m : RealmId) (off : Int) : State :=
  let o := off / 65536
  let lim := if 2147483647 < o then 2147483647 else if o < -2147483647 then -2147483647 else o
  let s := s.oput m o24_OFFSET lim
  let a := off.natAbs
  let within := fun k => decide (a ≤ s.onat m k * 65536)
  let servo := fun s : State => setRate s m (Config.servoRate (s.onat m o24_SERVO_BW) off (s.realm m).tb.rate)
  let st := tbState s m
  match (s.ptp m).trial with
  | some n =>
    if within o24_UNLOCK_THRESHOLD then
      (if n + 1 = 4 then setTbState s m 2 else s.modPtp m (fun x => { x with trial := some (n + 1) }))
    else setTbState s m 1
  | none =>
    if st = 1 then
      if !(s.ptp m).stepped ∧ !within o24_STEP_THRESHOLD then
        (stepTb s m (-off)).modPtp m (fun x => { x with stepped := true, good := 0 })
      else
        let s := servo (s.modPtp m (fun x => { x with good := if within o24_LOCK_THRESHOLD then x.good + 1 else 0 }))
        if 16 ≤ (s.ptp m).good then setTbState s m 2 else s
    else if st = 2 then
      let s := servo s
      let s := s.modPtp m (fun x =>
        { x with bad := if within o24_UNLOCK_THRESHOLD then 0 else x.bad + 1, rates := ((s.realm m).tb.rate :: x.rates).take 64 })
      if 4 ≤ (s.ptp m).bad then setTbState s m 1 else s
    else s

def masterSrc (s : State) (m : RealmId) : Option Nat := (s.ptp m).master.map (·.src)

/-- meanPathDelay in ns × 2^16, from a value; never below 0. -/
def setDelay (s : State) (m : RealmId) (d : Int) : State := s.oput m o24_MEAN_PATH_DELAY (Nat.min (d / 65536).toNat 4294967295 : Nat)
def meanDelay (s : State) (m : RealmId) : Int := s.oget m o24_MEAN_PATH_DELAY * 65536

/-- Sync from the selected master. -/
def rxSync (s : State) (m : RealmId) (b : List Byte) (t2 : Int) : State :=
  let t1 := ptpTs b 34
  let c := ptpCorr b
  useOffset (s.modPtp m (fun x => { x with sync := some (t1, t2, c) })) m (t2 - t1 - c - meanDelay s m)

/-- Delay_Resp of the exchange with the latest Sync. -/
def rxDelayResp (s : State) (m : RealmId) (b : List Byte) : State :=
  match (s.ptp m).sync, (s.ptp m).delayReq with
  | some (t1, t2, c), some (q, t3) =>
    if q = ptpSeq b ∧ be b 44 10 = portId s m then
      setDelay (s.modPtp m (fun x => { x with delayReq := none })) m ((t2 - t1 - c + (ptpTs b 34 - ptpCorr b - t3)) / 2)
    else s
  | _, _ => s

/-- Pdelay_Resp of a one-step responder. -/
def rxPdelayResp (s : State) (m : RealmId) (b : List Byte) (t4 : Int) : State :=
  match (s.ptp m).pdelayReq with
  | some (q, t1) =>
    if q = ptpSeq b ∧ be b 44 10 = portId s m then
      setDelay (s.modPtp m (fun x => { x with pdelayReq := none })) m ((t4 - t1 - ptpCorr b) / 2)
    else s
  | none => s

/-- The answer to Pdelay_Req carries the turnaround time (R391). -/
def answerPdelay (s : State) (m : RealmId) (p : Nat) (b : List Byte) (t2 : Int) : State :=
  let (t3, s) := stampNow s m
  let msg := fun c : Int => ptpHeader s m 3 54 0 c (ptpSeq b) 127 ++ toBe 10 0 ++ toBe 10 (ptpSrc b)
  sendEvent s m p groupPeer 1 (msg (ptpCorr b)) (msg (ptpCorr b + (t3 - t2)))

/-- The answer of a master to Delay_Req. -/
def answerDelay (s : State) (m : RealmId) (p : Nat) (b : List Byte) (t4 : Int) : State :=
  sendGeneral s m p groupPtp 32 (ptpHeader s m 9 54 0 (ptpCorr b) (ptpSeq b) (s.oget m o24_LOG_DELAY_REQ)
    ++ tsField t4 ++ toBe 10 (ptpSrc b))

/-- A received event message, or Delay_Resp, taken from the Keeper's queue with its timestamp. -/
def execPtpEventMessage (e : PEv) (bytes : List Byte) (s : State) : Result :=
  let s := s.at e.t
  let m := e.m
  if 2 ≤ e.p then .next s
  else
    let q := ((s.nport m e.p).queue.find? (fun q => q.2 == bytes)).map (·.1)
    let (now, s) := stampNow s m
    let t := q.getD now
    let s := fromQueue s m e.p bytes
    let b := ptpMsg s m e.p bytes
    let ty := ptpType b
    let master := masterSrc s m == some (ptpSrc b)
    let active := decide ((s.ptp m).port = e.p)
    let mech := s.onat m o24_DELAY_MECH
    if ptpOurs s m b = false ∨ !active then .next s
    else if (ty = 0 ∨ ty = 3) ∧ twoStep b then
      .next (if tbState s m = 4 then s
        else (s.bump m o24_TWO_STEP_DISCARDS 1).raiseOnce m 0x2404 o24_TWO_STEP_DISCARDS 0 (sec 10))
    else if ty = 0 ∧ master then .next (rxSync s m b t)
    else if ty = 9 ∧ master ∧ mech = 0 ∧ 54 ≤ b.length then .next (rxDelayResp s m b)
    else if ty = 3 ∧ mech = 1 ∧ 54 ≤ b.length then .next (rxPdelayResp s m b t)
    else if ty = 2 ∧ mech = 1 then .next (answerPdelay s m e.p b t)
    else if ty = 1 ∧ mech = 0 ∧ tbState s m = 4 then .next (answerDelay s m e.p b t)
    else .next s

/-! ## Best master (R393) -/

def logPs (v : Int) : Time := if 0 ≤ v then sec (2 ^ v.toNat) else sec 1 / 2 ^ (-v).toNat
def announcePs (s : State) (m : RealmId) : Time := logPs (s.oget m o24_LOG_ANNOUNCE)
def announceTimeoutPs (s : State) (m : RealmId) : Time := s.onat m o24_ANNOUNCE_TIMEOUT * announcePs s m

def announceData (b : List Byte) : PtpData :=
  ⟨byteAt b 47, byteAt b 48, byteAt b 49, be b 50 2, byteAt b 52, be b 53 8, be b 61 2, ptpSrc b⟩

def ownData (s : State) (m : RealmId) : PtpData :=
  ⟨s.onat m o24_PRIORITY1, 248, 0xFE, 0xFFFF, s.onat m o24_PRIORITY2, clockId s m, 0, portId s m⟩

/-- The order of two data sets: attributes of the grandmaster and its identity; for one grandmaster, steps and sender. -/
def dataKey (x : PtpData) : List Nat := [x.prio1, x.cls, x.acc, x.var, x.prio2, x.gm, x.steps, x.src]
def lexLess : List Nat → List Nat → Bool
  | a :: r, b :: t => decide (a < b) || (a == b && lexLess r t)
  | _, _ => false
def better (a b : PtpData) : Bool :=
  if a.gm = b.gm then lexLess [a.steps, a.src] [b.steps, b.src] else lexLess ((dataKey a).take 6) ((dataKey b).take 6)

/-- A foreign master that has sent two Announce messages within four intervals. -/
def qualified (s : State) (m : RealmId) (f : Foreign) : Bool :=
  decide (2 ≤ (f.times.filter (fun t => decide (s.now < t + 4 * announcePs s m))).length)

def bestOf : List PtpData → Option PtpData
  | [] => none
  | x :: r => match bestOf r with
    | none => some x
    | some y => some (if better x y then x else y)

def bestOn (s : State) (m : RealmId) (p : Nat) : Option PtpData :=
  bestOf (((s.ptp m).foreign.filter (fun f => f.port == p && qualified s m f)).map (·.data))

/-- The ports on which Announce messages are evaluated. -/
def evaluates (s : State) (m : RealmId) (p : Nat) : Bool :=
  let v := s.onat m o24_PTP_PORT
  v == 2 || v == p

/-- The best-master algorithm on the active port. -/
def bmca (s : State) (m : RealmId) : State :=
  match bestOn s m (s.ptp m).port with
  | none => s
  | some x =>
    if s.onat m o24_SLAVE_ONLY = 0 ∧ better (ownData s m) x then (if tbState s m = 4 then s else becomeGm s m)
    else selectMaster s m x

/-- The PTP port moves (R393). -/
def movePort (s : State) (m : RealmId) (p : Nat) : State :=
  if (s.ptp m).port = p then s
  else bmca ((s.modPtp m (fun x => { x with port := p, sync := none, delayReq := none, pdelayReq := none })).bump m o24_PTP_FAILOVERS 1) m

/-- A write of PTP_PORT. -/
def ptpPortDo (s : State) (m : RealmId) (v : Nat) : State :=
  let s := s.oput m o24_PTP_PORT (v : Nat)
  if v < 2 then bmca (s.modPtp m (fun x => { x with port := v })) m else s

/-- A write of SLAVE_ONLY: a realm that may no longer be master leaves GRANDMASTER (R393; log entry 39). -/
def slaveOnlyDo (s : State) (m : RealmId) (v : Nat) : State :=
  let s := s.oput m o24_SLAVE_ONLY (v : Nat)
  if v = 1 ∧ tbState s m = 4 ∧ (bestOn s m (s.ptp m).port).isNone then setTbState s m 0 else bmca s m

/-- Links and Announce messages decide in AUTO. -/
def autoPort (s : State) (m : RealmId) : State :=
  let a := (s.ptp m).port
  if s.onat m o24_PTP_PORT ≠ 2 then s
  else if npobj s m o24_LINK_STATE a ≠ 1 ∧ npobj s m o24_LINK_STATE (1 - a) = 1 then movePort s m (1 - a) else s

/-- A received Announce. -/
def execAnnounce (e : PEv) (bytes : List Byte) (s : State) : Result :=
  let s := s.at e.t
  let m := e.m
  if 2 ≤ e.p then .next s
  else
    let s := fromQueue s m e.p bytes
    let b := ptpMsg s m e.p bytes
    if ptpOurs s m b = false ∨ ptpType b ≠ 0xB ∨ b.length < 64 ∨ 255 ≤ be b 61 2 ∨ evaluates s m e.p = false then .next s
    else
      let x := announceData b
      let old := ((s.ptp m).foreign.find? (fun f => f.port == e.p && f.data.src == x.src)).map (·.times)
      let times := s.now :: (old.getD []).filter (fun t => decide (s.now < t + 4 * announcePs s m))
      let rest := (s.ptp m).foreign.filter (fun f => !(f.port == e.p && f.data.src == x.src))
      .next (bmca (s.modPtp m (fun y => { y with foreign := ⟨e.p, x, times⟩ :: rest })) m)

/-- An Announce heard on a port within the receipt timeout. -/
def heard (s : State) (m : RealmId) (p : Nat) : Bool :=
  (s.ptp m).foreign.any (fun f => f.port == p && f.times.any (fun t => decide (s.now < t + announceTimeoutPs s m)))

/-- A port has had no Announce for the receipt timeout. -/
def execAnnounceTimeout (e : PEv) (s : State) : Result :=
  let s := s.at e.t
  let m := e.m
  if 2 ≤ e.p ∨ heard s m e.p ∨ s.onat m o24_PTP_ENABLE = 0 then .next s
  else
    let s := s.modPtp m (fun x => { x with foreign := x.foreign.filter (fun f => f.port != e.p) })
    if (s.ptp m).port ≠ e.p then .next s
    else if s.onat m o24_PTP_PORT = 2 ∧ (bestOn s m (1 - e.p)).isSome then .next (movePort s m (1 - e.p))
    else .next (masterLost s m)

/-! ## Messages sent (R390, R391) -/

/-- At its interval the realm sends Sync (kind 0), Delay_Req (1), Pdelay_Req (2) or Announce (0xB). -/
def execPtpMessageTransmit (e : Ev) (kind : Nat) (s : State) : Result :=
  let s := s.at e.t
  let m := e.m
  let p := (s.ptp m).port
  let x := s.ptp m
  let gm := tbState s m == 4
  if npobj s m o24_LINK_STATE p ≠ 1 ∨ s.onat m o24_PTP_ENABLE = 0 then .next s
  else if kind = 0 ∧ gm then
    let (t, s) := stampNow s m
    let msg := fun t : Int => ptpHeader s m 0 44 0 0 x.seqSync (s.oget m o24_LOG_SYNC) ++ tsField t
    .next (sendEvent (s.modPtp m (fun x => { x with seqSync := (x.seqSync + 1) % 65536 })) m p groupPtp 32 (msg 0) (msg t))
  else if kind = 1 ∧ !gm ∧ x.master.isSome ∧ s.onat m o24_DELAY_MECH = 0 then
    let (t, s) := stampNow s m
    let s := s.modPtp m (fun x => { x with seqReq := (x.seqReq + 1) % 65536, delayReq := some (x.seqReq, t) })
    let msg := ptpHeader s m 1 44 0 0 x.seqReq 127 ++ tsField 0
    .next (sendEvent s m p groupPtp 32 msg msg)
  else if kind = 2 ∧ s.onat m o24_DELAY_MECH = 1 then
    let (t, s) := stampNow s m
    let s := s.modPtp m (fun x => { x with seqReq := (x.seqReq + 1) % 65536, pdelayReq := some (x.seqReq, t) })
    let msg := ptpHeader s m 2 54 0 0 x.seqReq 127 ++ toBe 20 0
    .next (sendEvent s m p groupPeer 1 msg msg)
  else if kind = 0xB ∧ gm then
    let d := ownData s m
    let msg := ptpHeader s m 0xB 64 0 0 x.seqAnn (s.oget m o24_LOG_ANNOUNCE) ++ toBe 10 0 ++ toBe 2 0
      ++ [0, BitVec.ofNat 8 d.prio1, BitVec.ofNat 8 d.cls, BitVec.ofNat 8 d.acc] ++ toBe 2 d.var
      ++ [BitVec.ofNat 8 d.prio2] ++ toBe 8 d.gm ++ toBe 2 0 ++ [0xA0]
    .next (sendGeneral (s.modPtp m (fun x => { x with seqAnn := (x.seqAnn + 1) % 65536 })) m p groupPtp 32 msg)
  else .next s

/-! ## Seconds, PPS input, links -/

/-- The Keeper reads the timebase and publishes PTP_TIME. -/
def execTimebaseSecond (e : Ev) (s : State) : Result :=
  let s := s.at e.t
  .next ((s.oput e.m o24_PTP_TIME (tsInt (s.tbNs e.m))).irq e.m 18)

/-- The signed distance of a time from the nearest whole second. -/
def secondError (n : Int) : Int :=
  let r := n % 1000000000
  if r ≤ 500000000 then r else r - 1000000000

def execPpsInEdge (e : Ev) (s : State) : Result :=
  let s := s.at e.t
  let early := match (s.net e.m).ppsIn with
    | some t => decide (s.now < t + ms 500)
    | none => false
  if early then .next s
  else
    let (t, s) := stampNow s e.m
    let n := t / 65536
    let s := s.modNet e.m (fun x => { x with ppsIn := some s.now })
    .next ((s.oput e.m o24_PPS_IN_TS (tsInt n.toNat)).oput e.m o24_PPS_IN_ERROR (secondError n))

/-- Block lock without a fault for 10 ms; the ports take their reference from M#_SDREF (01 R18). -/
def execLinkUp (e : PEv) (s : State) : Result :=
  let s := s.at e.t
  .next (if e.p < 2 ∧ npobj s e.m o24_LINK_ENABLE e.p = 1 ∧ npobj s e.m o24_LINK_STATE e.p = 0
      ∧ (s.realm e.m).mode ≠ .dormant ∧ (s.realm e.m).sdref then autoPort (setLink s e.m e.p 1) e.m else s)

/-- Bytes 0 to 95 of the module at 0x50, after the switch's control byte; a port whose module does not acknowledge is NO_MODULE. -/
def execModuleIdRead (e : PEv) (ack : I2cAck) (bytes : List Byte) (s : State) : Result :=
  let s := s.at e.t
  if 2 ≤ e.p then .next s
  else
    let s := selectModule s e.m e.p ack.switch
    let on := npobj s e.m o24_LINK_ENABLE e.p = 1
    if moduleThere e.p ack then
      let s := (s.oput e.m (o24_MODULE_ID + 16 * e.p) (blob 96 bytes)).irq e.m 15
      .next (if npobj s e.m o24_LINK_STATE e.p = 2 then setLink s e.m e.p 0 else s)
    else .next (if on then autoPort (setLink s e.m e.p 2) e.m else s)

def execModuleDiagRead (e : PEv) (ack : I2cAck) (bytes : List Byte) (s : State) : Result :=
  let s := s.at e.t
  if 2 ≤ e.p then .next s
  else
    let s := selectModule s e.m e.p ack.switch
    .next (if moduleThere e.p ack ∧ telemetry s e.m then
        (s.oput e.m (o24_MODULE_DIAG + 16 * e.p) (blob 16 bytes)).irq e.m 15 else s)

def execLinkDown (e : PEv) (s : State) : Result :=
  let s := s.at e.t
  .next (if e.p < 2 ∧ npobj s e.m o24_LINK_STATE e.p = 1 then autoPort (linkDown s e.m e.p) e.m else s)

/-- A write of LINK_ENABLE. -/
def linkEnableWrite (s : State) (m : RealmId) (p v : Nat) : State := autoPort (linkEnableDo s m p v) m

/-! ## Profiles (R390) -/

/-- A write of PTP_PROFILE loads Table 11-3. -/
def ptpProfileDo (s : State) (m : RealmId) (v : Nat) : State :=
  let d := fun (a b : Int) => if v = 0 then a else b
  let s := (s.oput m o24_PTP_PROFILE (v : Nat)).oput m o24_PTP_DOMAIN (d 0 127)
  let s := (s.oput m o24_LOG_SYNC (-3)).oput m o24_LOG_ANNOUNCE (d 1 (-2))
  (s.oput m o24_LOG_DELAY_REQ (d 0 (-3))).oput m o24_ANNOUNCE_TIMEOUT 3

end Sys2Proof.Machine
end

