-- ==== Sys2Proof/Machine/Governor.lean ====
section
/-!
DEFINITION. The Margin Governor and VCORE (02 R42 to R60; 01 R19 to R24; 18 R596).
MARKED CHOICES of this file (DESIGN CHOICE, DEDUCED or PRESUMED): log entries 4 and 41.
-/
namespace Sys2Proof.Machine

def gobj (s : State) (m : RealmId) (k : Nat) : Nat := s.onat m k

/-! ## STATUS -/

/-- A bit of STATUS; any change of STATUS is a MARGIN interrupt (14 Table 14-12). -/
def setStatus (s : State) (m : RealmId) (bit : Nat) (v : Bool) : State :=
  let old := gobj s m o12_STATUS
  let new := if old / 2 ^ bit % 2 = 1 then (if v then old else old - 2 ^ bit) else (if v then old + 2 ^ bit else old)
  if new = old then s else (s.oput m o12_STATUS (new : Nat)).irq m 4

def statusBit (s : State) (m : RealmId) (bit : Nat) : Bool := gobj s m o12_STATUS / 2 ^ bit % 2 == 1

/-! ## VCORE (01 R19 to R24) -/

/-- Realms that contribute. -/
def contributes (s : State) (m : RealmId) : Bool := (s.realm m).mode != .dormant
def allRealms : List RealmId := [0, 1, 2, 3]

def mergedRequest (s : State) : Nat :=
  let l := (allRealms.filter (contributes s)).map (fun m => gobj s m o12_VCORE_REQUEST)
  if l = [] then 800 else l.foldl Nat.max 0

/-- The Host Hub commands the merged setpoint. -/
def mergeVcore (s : State) : State :=
  let v := mergedRequest s
  allRealms.foldl (fun s m => s.oput m o12_VCORE_MERGED (v : Nat)) (s.hput o02_VCORE_SETPOINT (v : Nat))

def setpoint (s : State) : Nat := (s.hget o02_VCORE_SETPOINT).toNat

/-- The realm that sweeps. -/
def sweeper (s : State) : Option RealmId := allRealms.find? (fun m => (s.realm m).gov.sweepStart.isSome)

/-- VCORE that a sweep asks for at an instant (Table 2-3); after its last point, and where a point above 0.80 V is omitted, the
setpoint (R55). -/
def sweepTarget (t0 : Time) (base now : Nat) : Nat :=
  let e := now - t0
  let j := if e < us 200 then 0 else if e < us 525 then 1 else if e < us 850 then 2 else if e < us 1175 then 3
    else if e < us 1500 then 4 else 0
  if base + 25 * j ≤ 800 then base + 25 * j else base

/-- Where VCORE is being taken: the setpoint, or above it for a sweep (R24). -/
def voutTarget (s : State) : Nat :=
  match sweeper s with
  | some m =>
    match (s.realm m).gov.sweepStart with
    | some (t0, b) => Nat.max (setpoint s) (sweepTarget t0 b s.now)
    | none => setpoint s
  | none => setpoint s

/-- A third failure in a row, or a reported fault (18 R596). -/
def avsFault (s : State) : State := ({ s with hub := { s.hub with avs := false } } : State).hirq 0

def avsFailed (s : State) : State :=
  let n := s.hub.avsFails + 1
  if 3 ≤ n then avsFault { s with hub := { s.hub with avsFails := 0 } } else { s with hub := { s.hub with avsFails := n } }

/-- A Vout write moves VCORE by at most 5 mV, at most once in 5 µs; the last setpoint is held after a fault. -/
def execAvsVoutWrite (t : Time) (ok : Bool) (s : State) : Result :=
  let s := s.at t
  let h := s.hub
  if h.mode ≠ .hub ∨ h.avs = false ∨ s.now < h.voutAt + us 5 ∨ h.vout = voutTarget s then .next s
  else if ok then
    let v := if h.vout < voutTarget s then Nat.min (h.vout + 5) (voutTarget s) else Nat.max (h.vout - 5) (voutTarget s)
    .next { s with hub := { h with vout := v, voutAt := s.now, avsFails := 0 } }
  else .next (avsFailed s)

def execAvsStatusRead (t : Time) (ok fault : Bool) (s : State) : Result :=
  let s := s.at t
  if s.hub.mode ≠ .hub ∨ s.hub.avs = false then .next s
  else if ok = false then .next (avsFailed s)
  else if fault then .next (avsFault s)
  else .next { s with hub := { s.hub with avsFails := 0 } }

/-! ## Replicas (R42 to R44) -/

def replicaBad (s : State) (m : RealmId) (i : Nat) : Bool := gobj s m o12_REPLICA_FAILED / 2 ^ i % 2 == 1
def replicas : List Nat := List.range 64
def goodReplicas (s : State) (m : RealmId) : List Nat := replicas.filter (fun i => !replicaBad s m i)

def setRequest (s : State) (m : RealmId) (v : Nat) : State := s.oput m o12_VCORE_REQUEST (v : Nat)

/-- A replica has not completed within 10 ns. -/
def execReplicaFailed (e : Ev) (i : Fin 64) (s : State) : Result :=
  let s := s.at e.t
  let m := e.m
  if contributes s m = false ∨ replicaBad s m i.val then .next s
  else
    let s := s.oput m o12_REPLICA_FAILED ((gobj s m o12_REPLICA_FAILED + 2 ^ i.val : Nat) : Int)
    let tile := (replicas.filter (fun j => decide (j / 4 = i.val / 4) && replicaBad s m j)).length
    if 4 < (replicas.filter (replicaBad s m)).length ∨ tile = 4 then
      .next (mergeVcore (setRequest (setStatus s m 1 true) m 800))
    else .next s

/-! ## Sampling (R44 to R53, R56, R59) -/

def noTime : Nat := 0xFFFFFFFF

/-- t_g: rounded up to the next whole picosecond (R45). -/
def tgOf (tworst guard : Nat) : Nat := (tworst * (10000 + guard) + 9999) / 10000

/-- t_worst, t_g and t_adm take their values; without a value t_g has not stayed low (R59). -/
def publishTg (s : State) (m : RealmId) (tworst : Option Nat) : State :=
  match tworst with
  | none =>
    let s := s.modGov m (fun g => { g with lowSince := none })
    ((s.oput m o12_T_WORST (noTime : Nat)).oput m o12_TG (noTime : Nat)).oput m o12_T_ADM (noTime : Nat)
  | some w =>
    let g := tgOf w (gobj s m o12_GUARD)
    (((s.oput m o12_T_WORST (w : Nat)).oput m o12_TG (g : Nat)).oput m o12_T_ADM (Nat.max g 1000 : Nat)).irq m 19

/-- A measured point of the fit; a later one replaces that of the same VCORE, and points last 24 h (R56). -/
def addPoint (s : State) (m : RealmId) (mv ps : Nat) : State :=
  let keep := fun t : Time => decide (s.now ≤ t + sec 86400)
  let s := s.modGov m (fun g =>
    { g with fit := ⟨s.now, mv, ps, g.temp⟩ :: g.fit.filter (fun p => p.mv != mv && keep p.t),
             measured := (s.now, mv) :: g.measured.filter (fun p => p.2 != mv && keep p.1) })
  setStatus s m 3 (decide ((s.realm m).gov.fit.length < 3))

/-- The step time that the fit predicts at a VCORE and a temperature, in 10^-6 ps (R49, R57). The curve shape is free (log
entry 4). -/
def predicted (s : State) (m : RealmId) (mv : Nat) (temp : Int) : Nat :=
  Config.predict ((s.realm m).gov.fit.map (fun p => (p.mv, p.ps, p.temp))) mv temp

/-- The VCORE grid of requests, lowest first (R49). -/
def vcoreGrid : List Nat := (List.range 41).map (fun i => 600 + 5 * i)

/-- The predicted t_worst × (1 + g) is at most t_target (R49). -/
def fits (s : State) (m : RealmId) (mv : Nat) : Bool :=
  decide (predicted s m mv (s.realm m).gov.temp * (10000 + gobj s m o12_GUARD)
    ≤ 1000000000 * (10000 - gobj s m o12_SLACK_MARGIN))

/-- The candidate request: the lowest VCORE of the grid that fits (R49); where none does the spec gives no candidate and the
value is free on the grid (log entry 4). -/
def drawCandidate (s : State) (m : RealmId) : Nat × State :=
  match vcoreGrid.find? (fits s m) with
  | some v => (v, s)
  | none =>
    let (d, s) := s.draw
    (600 + 5 * (d % 41), s)

/-- The request that follows a sample (R43, R50 to R53; 01 R21). MODEL'S CHOICE (log entry 41): in a millisecond in which R52
raises the request, a candidate that lies higher still (R50) is left to the next one. -/
def nextRequest (s : State) (m : RealmId) (tg : Nat) : State :=
  let fixed := gobj s m o12_FIXED_REQUEST
  let req := gobj s m o12_VCORE_REQUEST
  let slack := gobj s m o12_SLACK_MARGIN
  let (c, s) := drawCandidate s m
  let cands := (s.now, c) :: (s.realm m).gov.cands.filter (fun p => decide (s.now ≤ p.1 + sec 1))
  let s := s.modGov m (fun g => { g with cands := cands })
  let lowest := (s.realm m).gov.measured.foldl (fun a p => Nat.min a p.2) 800
  let fallOk : Bool := match (s.realm m).gov.lastFall with
    | some t => decide (t + ms 100 ≤ s.now)
    | none => true
  if (s.realm m).mode = .maintenance ∧ fixed ≠ 0 then setRequest s m fixed
  else if statusBit s m 1 then setRequest s m 800
  else if (s.realm m).gov.swept = false then setRequest s m 800
  else if 1000 * (20000 - slack) < tg * 20000 then setRequest s m (Nat.max req (Nat.min 800 (setpoint s + 25)))
  else if req < c then setRequest s m c
  else if c < req ∧ cands.all (fun p => decide (p.2 ≤ c)) ∧ fallOk ∧ lowest ≤ Nat.max (req - 5) c + 50 then
    (setRequest s m (Nat.max (req - 5) c)).modGov m (fun g => { g with lastFall := some s.now })
  else s

/-- MARGIN_EXHAUSTED is set, and how long t_g has stayed low (R59). -/
def marginCheck (s : State) (m : RealmId) (tg : Nat) : State :=
  let target := 1000 * (10000 - gobj s m o12_SLACK_MARGIN)
  let s := s.modGov m (fun g =>
    { g with lowSince := if tg * 1000000 ≤ target * 99 then (match g.lowSince with
        | some t => some t
        | none => some s.now) else none })
  if gobj s m o12_VCORE_REQUEST = 800 ∧ target < tg * 10000 ∧ statusBit s m 0 = false then
    (setStatus s m 0 true).raise m 0x1201 o12_STATUS
  else s

/-- DIE_TEMP, and source THERMAL when the device's largest reaches 105.00 °C (15 Table 15-8). -/
def tempMax (s : State) : Int :=
  let l := (allRealms.filter (contributes s)).map (fun m => (s.realm m).gov.temp)
  l.foldl (fun a t => if a < t then t else a) (l.headD 0)

def setTemp (s : State) (m : RealmId) (t : Int) : State :=
  let old := tempMax s
  let s := s.modGov m (fun g => { g with temp := t })
  let s := if telemetry s m then s.oput m o12_DIE_TEMP t else s
  if old < 10500 ∧ 10500 ≤ tempMax s then s.hirq 1 else s

/-- The worst replica of a sampling instant. -/
def worstOf (s : State) (m : RealmId) (samples : List Nat) : Option Nat :=
  match (goodReplicas s m).filterMap (fun i => samples[i]?) with
  | [] => none
  | l => some (l.foldl Nat.max 0)

/-- Every 1 ms. -/
def execGovernorSample (e : Ev) (samples : List Nat) (temp : Int) (s : State) : Result :=
  let s := s.at e.t
  let m := e.m
  if contributes s m = false then .next s
  else
    let s := setTemp s m temp
    match worstOf s m samples with
    | none =>
      let none' := (goodReplicas s m).isEmpty
      .next (publishReady (mergeVcore (if none' then setRequest (publishTg s m none) m 800 else s)) m)
    | some w =>
      let above := (sweeper s).isSome && decide (setpoint s < s.hub.vout)
      let s := if above then s else
        (addPoint s m s.hub.vout w).modGov m (fun g =>
          { g with samples := (s.now, w) :: (g.samples.filter (fun p => decide (s.now < p.1 + sec 1))) })
      let l := (s.realm m).gov.samples
      let s := publishTg s m (if l = [] then none else some (l.foldl (fun a p => Nat.max a p.2) 0))
      let tg := gobj s m o12_TG
      let s := if tg = noTime then s else nextRequest s m tg
      let s := if tg = noTime then s else marginCheck s m tg
      .next (publishReady (mergeVcore s) m)

def execMarginExhaustedClear (e : Ev) (s : State) : Result :=
  let s := s.at e.t
  let long : Bool := match (s.realm e.m).gov.lowSince with
    | some t => decide (t + sec 10 ≤ s.now)
    | none => false
  .next (if statusBit s e.m 0 ∧ long then setStatus s e.m 0 false else s)

/-! ## FIXED_REQUEST (R53) -/

def fixedRequestErr (s : State) (m : RealmId) : Option Nat := if (s.realm m).mode = .maintenance then none else some 0x17

def fixedRequestDo (s : State) (m : RealmId) (v : Nat) : State :=
  let s := s.oput m o12_FIXED_REQUEST (v : Nat)
  if v = 0 then s else mergeVcore (setRequest s m v)

/-! ## Sweeps (R54 to R58; 01 R23) -/

/-- A sweep is due at an entry to BRING-UP and every 24 h of the realm's timebase. -/
def sweepIsDue (s : State) (m : RealmId) : Bool :=
  match (s.realm m).gov.sweepDue with
  | some t => decide (t ≤ s.tbNs m)
  | none => true

/-- Entry to BRING-UP: a sweep is due, and the realm asks for 0.80 V until it has ended (R54; 01 R21). -/
def sweepAnew (s : State) (m : RealmId) : State :=
  mergeVcore (setRequest (s.modGov m (fun g => { g with sweepDue := none, swept := false })) m 800)

/-- A sweep starts; one that falls due while another realm sweeps waits for it. -/
def execCharacterisationSweep (e : Ev) (s : State) : Result :=
  let s := s.at e.t
  let m := e.m
  if contributes s m = false ∨ (sweeper s).isSome ∨ sweepIsDue s m = false then .next s
  else
    let s := s.modGov m (fun g => { g with sweepStart := some (s.now, setpoint s), sweepDue := some (s.tbNs m + 86400000000000) })
    .next ((setStatus s m 2 true).hput o02_SWEEP_REALM (m.val : Nat))

/-- The VCORE values of a sweep that starts at `b` (R55). -/
def sweepPoints (b : Nat) : List Nat :=
  if 800 ≤ b then [800] else [b, b + 25, b + 50, b + 75, b + 100].filter (fun v => decide (v ≤ 800))

/-- The measurements of a sweep's points, in their order, each by replica number: every point measures every replica that has
not failed (R55). -/
def sweepMeasured (s : State) (m : RealmId) (b : Nat) (points : List (List Nat)) : Bool :=
  decide (points.length = (sweepPoints b).length) && points.all (fun l => (goodReplicas s m).all (fun i => decide (i < l.length)))

/-- Numerator and denominator of the least-squares slope of values over instants, in 10^-6 ps per ps (R57). -/
def slope (l : List (Time × Nat)) : Int × Nat :=
  let sum := fun (f : Time × Nat → Nat) => l.foldl (fun a p => a + f p) 0
  let n := l.length
  let st := sum Prod.fst
  (((n * sum (fun p => p.1 * p.2) : Nat) : Int) - ((st * sum Prod.snd : Nat) : Int), n * sum (fun p => p.1 * p.1) - st * st)

/-- DRIFT: the slope in ppm per 1,000 h of a base that the spec does not name (R57; log entry 4). -/
def driftOf (l : List (Time × Nat)) : Int :=
  let (n, d) := slope l
  if d = 0 then Config.driftShort l
  else
    let v := Config.quot 3 (n.natAbs * 1000000 * sec 3600000) (d * (Config.driftBase l + 1))
    if n < 0 then -(v : Int) else v

/-- The tenths of a year after which a normalised step time, in 10^-6 ps, that grows by `drift` reaches t_target ÷ (1 + g)
(R58). -/
def yearsToLimit (l : List (Time × Nat)) (norm drift guard slack : Nat) : Nat :=
  let year := if Config.julianYear then 525960 else 525600
  Config.quot 4 ((1000000000 * (10000 - slack) - norm * (10000 + guard)) * 1000000 * 600000)
    ((10000 + guard) * drift * (Config.driftBase l + 1) * year)

/-- A sweep ends with the measurements of its points, and releases the next (R55, R57, R58); without all of them it has not
ended. -/
def execSweepEnd (e : Ev) (points : List (List Nat)) (s : State) : Result :=
  let s := s.at e.t
  let m := e.m
  match (s.realm m).gov.sweepStart with
  | none => .next s
  | some (_, b) =>
    if sweepMeasured s m b points = false then .next s
    else
      let s := ((sweepPoints b).zip points).foldl (fun s p => match worstOf s m p.2 with
        | some w => addPoint s m p.1 w
        | none => s) s
      let norm := predicted s m 800 10500
      let s := s.modGov m (fun g =>
        { g with norms := ((s.now, norm) :: g.norms).take 30, sweeps := g.sweeps + 1, sweepStart := none, swept := true })
      let g := (s.realm m).gov
      let drift := driftOf g.norms
      let years := if drift ≤ 0 ∨ g.sweeps < 7 then 0xFFFF
        else Nat.min 999 (yearsToLimit g.norms norm drift.toNat (gobj s m o12_GUARD) (gobj s m o12_SLACK_MARGIN))
      let s := (s.oput m o12_T_NORM (Config.quot 2 norm 1000000 : Nat)).oput m o12_DRIFT drift
      let s := (s.oput m o12_YEARS_TO_LIMIT (years : Nat)).oput m o12_SWEEP_LAST (tsInt (s.tbNs m))
      .next ((setStatus s m 2 false).hput o02_SWEEP_REALM 0xFF)

end Sys2Proof.Machine
end

