-- ==== Sys2Proof/Machine/Clock.lean ====
section
/-!
DEFINITION. Sample clocks, references and synthesis (10): lock detection and glide relock, the DCO, reference candidates
and their selection, the reference loop, pulse outputs and auxiliary synthesisers; TIME_SET (11 R389).
MARKED CHOICES of this file (DESIGN CHOICE, DEDUCED or PRESUMED): log entries 6, 16, 40, 42 and 43.
-/
namespace Sys2Proof.Machine

def pllState (s : State) (m : RealmId) : Nat := s.onat m o22_PLL_STATE

/-- PLL_STATE changes. -/
def setPll (s : State) (m : RealmId) (v : Nat) : State :=
  if pllState s m = v then s else publishReady ((s.oput m o22_PLL_STATE (v : Nat)).irq m 1) m

/-! ## The DCO (R336, R345) -/

/-- One fine step in ps, times 98,304: 10^12 ÷ (100 × 983.04 MHz). -/
def fineStep98304 : Nat := 1000000

/-- The steering that a pull asks for, in ppb (R344, R345): while one runs for the selected candidate, PULL_RATE towards it; for
PHASE_ADJUST, PULL_RATE with a positive argument making the tick later (log entry 43). -/
def pullPpb (s : State) (m : RealmId) : Int :=
  let rate := (s.onat m o22_PULL_RATE : Int)
  if (s.clock m).pulling then (s.oget m o22_PHASE_ERROR).sign * rate
  else match (s.clock m).adjust with
    | none => 0
    | some (_, left) => -left.sign * rate

/-- y within ±PULL_RANGE (R336). -/
def limitY (s : State) (m : RealmId) (y : Int) : Int :=
  let lim := (s.onat m o22_PULL_RANGE : Int)
  if lim < y then lim else if y < -lim then -lim else y

/-- DIV_NOM of a sample rate. -/
def divNom (rate : Nat) : Nat := if rate % 48000 = 0 then Config.divNom48 else Config.divNom44

/-- DIV = DIV_NOM ÷ (1 + y), to the nearest 2^−40. -/
def divOf (rate : Nat) (ppb : Int) : Nat := (rne (divNom rate * 1000000000) (1000000000 + ppb).toNat).toNat

/-- A pull of PHASE_ADJUST up to now: what the tick has moved by since it was last worked out, at the steering that it has had
since then. It ends when all of its argument is done (R345). -/
def settlePull (s : State) (m : RealmId) : State :=
  match (s.clock m).adjust with
  | none => s
  | some (t0, left) =>
    let moved := ((s.clock m).steer - s.oget m o22_STEERING) * ((s.now - t0) * 98304 : Nat)
    let rest := left - moved
    s.modClock m (fun c => { c with adjust := if rest.sign = left.sign then some (s.now, rest) else none })

/-- STEERING and DIV as they are from now on. -/
def setDiv (s : State) (m : RealmId) : State :=
  let s := settlePull s m
  let y := limitY s m ((s.clock m).steer + pullPpb s m)
  (s.oput m o22_STEERING y).modClock m (fun c => { c with div := divOf c.rate y })

/-- The loop's y. -/
def setSteering (s : State) (m : RealmId) (y : Int) : State :=
  setDiv ((settlePull s m).modClock m (fun c => { c with steer := limitY s m y })) m

/-! ## Candidates (R346 to R352) -/

def candOff (s : State) (m : RealmId) (c : Nat) : Int := (s.cand m c).off

/-- A candidate has a valid signal. -/
def candSignal (s : State) (m : RealmId) (c : Nat) : Bool :=
  if c = 0 then tbState s m == 2 || tbState s m == 4
  else if c < 3 then (s.cand m c).signal
  else portState s m (c - 3) == 3 && pobj s m o20_ROLE (c - 3) == 2 && (s.cand m c).signal

def setRefState (s : State) (m : RealmId) (v : Nat) : State :=
  if s.onat m o22_REF_STATE = v then s else (s.oput m o22_REF_STATE (v : Nat)).irq m 17

def selected (s : State) (m : RealmId) : Nat := s.onat m o22_SELECTED

/-- SELECTED changes; the loop, or the slew of free run, starts from the current y, and `hold` keeps y where it is (R350, R355,
R359). A pull ends with the selection that it served, one of PHASE_ADJUST when a candidate is selected (log entry 43). -/
def select (s : State) (m : RealmId) (c : Nat) (hold : Bool) : State :=
  if selected s m = c then s
  else
    let s := ((s.oput m o22_SELECTED (c : Nat)).bump m o22_SWITCHES 1).irq m 17
    let s := s.modClock m (fun x =>
      { x with lockSince := none, pulling := false, steer := s.oget m o22_STEERING,
               adjust := if c = 0xFF ∧ hold = false then x.adjust else none,
               slew := if c = 0xFF ∧ hold = false then some (s.now, s.oget m o22_STEERING) else none })
    setRefState s m (if c = 0xFF then 0 else 1)

/-- A candidate with a valid signal that is within PULL_RANGE is QUALIFYING. -/
def seeCand (s : State) (m : RealmId) (c : Nat) : State :=
  if candState s m c = 1 ∧ candSignal s m c ∧ (candOff s m c).natAbs ≤ s.onat m o22_PULL_RANGE then
    (setCandState s m c 2).modCand m c (fun x => { x with since := s.now }) else s

def candNums : List Nat := [0, 1, 2, 3, 4]

/-- Candidates whose signal the realm itself knows. -/
def ownCands (s : State) (m : RealmId) : State :=
  [0, 3, 4].foldl (fun s c =>
    if candSignal s m c then seeCand s m c
    else if candState s m c = 2 ∨ candState s m c = 3 then loseCand s m c else s) s

def voters (s : State) (m : RealmId) : List Nat := candNums.filter (fun c => candState s m c == 3 && decide (cobj s m o22_RANK c < 8))

/-- Two candidates agree. -/
def agree (s : State) (m : RealmId) (a b : Nat) : Bool :=
  decide ((candOff s m a - candOff s m b).natAbs ≤ s.onat m o22_DISAGREE)

/-- The procedure of R349. -/
def chooseCand (s : State) (m : RealmId) : Nat :=
  let q := voters s m
  let sel := if q.contains (selected s m) then selected s m else 0xFF
  match q with
  | [] => 0xFF
  | _ =>
    let r := q.foldl (fun a c => Nat.min a (cobj s m o22_RANK c)) 8
    let g := q.filter (fun c => cobj s m o22_RANK c == r)
    let g := if sel ≠ 0xFF ∧ r < cobj s m o22_RANK sel then
        (if s.onat m o22_REVERTIVE = 0 then []
         else g.filter (fun c => decide ((s.cand m c).qualAt + ms (s.onat m o22_HOLDOFF) ≤ s.now)))
      else g
    let v := fun c => (q.filter (fun d => d != c && agree s m c d)).length
    let top := g.foldl (fun a c => Nat.max a (v c)) 0
    let g := if s.onat m o22_VOTE = 1 then g.filter (fun c => v c == top) else g
    match g with
    | [] => sel
    | c :: _ => if g.contains sel then sel else c

/-- The selector works from SETTLING on (R363). -/
def selectTick (s : State) (m : RealmId) : State :=
  if pllState s m = 3 ∨ pllState s m = 4 then select s m (chooseCand s m) false else s

/-- Pairs of qualified candidates of equal rank (R351). -/
def pairScan (s : State) (m : RealmId) : State :=
  let q := voters s m
  (q.flatMap (fun a => (q.filter (fun b => decide (a < b))).map (fun b => (a, b)))).foldl (fun s ab =>
    let key := 5 * ab.1 + ab.2
    let st := tget 0 (s.clock m).pairs key
    let put := fun (s : State) v => s.modClock m (fun c => { c with pairs := tput 0 c.pairs key v })
    if cobj s m o22_RANK ab.1 ≠ cobj s m o22_RANK ab.2 then s
    else if agree s m ab.1 ab.2 then
      (if st = 0 then s else if st = 1 then put s (s.now + 2) else if st - 2 + sec 1 ≤ s.now then put s 0 else s)
    else if st = 0 then ((put s 1).bump m o22_DISAGREE_COUNT 1).raise m 0x2201 (o22_CAND_OFFSET + 16 * ab.1)
    else if st = 1 then s else if st - 2 + sec 1 ≤ s.now then
      ((put s 1).bump m o22_DISAGREE_COUNT 1).raise m 0x2201 (o22_CAND_OFFSET + 16 * ab.1)
    else put s 1) s

/-! ## The reference loop (R344, R353, R355) -/

/-- The base rate of a rate's family. -/
def baseRate (rate : Nat) : Nat := if rate % 48000 = 0 then 48000 else 44100

/-- The pulse period of a candidate, in ps. -/
def pulsePs (s : State) (m : RealmId) (c : Nat) : Nat :=
  let rate := (s.clock m).rate
  1000000000000 / (if (c = 1 ∨ c = 2) ∧ cobj s m o22_CAND_MODE c = 1 then baseRate rate else rate)

/-- Wrapped into −P ÷ 2 exclusive to P ÷ 2 inclusive. -/
def wrapPhase (p : Nat) (e : Int) : Int :=
  let r := e % p
  if 2 * r ≤ p then r else r - p

def limit31 (v : Int) : Int := if 2147483647 < v then 2147483647 else if v < -2147483647 then -2147483647 else v

/-- A measured phase error of the selected candidate. A pull runs while |e| exceeds 50 ns and until it is at most one fine step;
the loop filter sets y while none runs (log entry 43). -/
def usePhase (s : State) (m : RealmId) (e : Int) : State :=
  let s := s.oput m o22_PHASE_ERROR (limit31 e)
  let inside := decide (e.natAbs ≤ 50000)
  let s := s.modClock m (fun c =>
    { c with lockSince := if inside then (match c.lockSince with
               | some t => some t
               | none => some s.now) else none,
             pulling := if inside then c.pulling && decide (fineStep98304 < e.natAbs * 98304) else true })
  let s := if inside then s else setRefState s m 1
  if (s.clock m).pulling then setDiv s m
  else setSteering s m (Config.loopSteering (s.clock m).steer e (s.onat m o22_LOOP_BW))

/-- e of the PTP candidate at a tick, from the timebase in ns (11 R386). -/
def ptpPhase (s : State) (m : RealmId) : Int :=
  let p := periodPs (s.rate m)
  let r := s.tbNs m * s.rate m % 1000000000
  wrapPhase p ((r * 1000 / s.rate m : Nat) - s.oget m o22_TICK_OFFSET * 1000)

/-- Free run: y moves towards 0 by FREE_SLEW per second; one that a loss of lock held starts when the selector works again. -/
def slewTick (s : State) (m : RealmId) : State :=
  match (s.clock m).slew with
  | none =>
    if selected s m = 0xFF ∧ (s.clock m).steer ≠ 0 ∧ (pllState s m = 3 ∨ pllState s m = 4) then
      s.modClock m (fun c => { c with slew := some (s.now, c.steer) })
    else s
  | some (t0, y0) =>
    let d := s.onat m o22_FREE_SLEW * (s.now - t0) / 1000000000000
    let a := y0.natAbs - d
    let s := setSteering s m (if 0 ≤ y0 then (a : Int) else -(a : Int))
    if a = 0 then s.modClock m (fun c => { c with slew := none }) else s

/-- The reference side of a realm tick; a new sample rate governs DIV_NOM and the tick divisor from here on (R340). -/
def refTick (s : State) (m : RealmId) : State :=
  let s := s.modClock m (fun c => { c with rate := s.rate m })
  let s := pairScan (ownCands s m) m
  let s := selectTick s m
  let s := if selected s m = 0 ∧ candSignal s m 0 then usePhase s m (ptpPhase s m) else s
  setDiv (slewTick s m) m

/-- e of a LEAD candidate: the tick's λ of that port less T, in ps (09 R315). -/
def leadPhase (s : State) (m : RealmId) (p : Nat) : Option Int :=
  (s.port m p).lam.map (fun l => (l : Int) - periodPs (s.rate m))

/-- A pulse of a candidate: the interval since its last one and the tick's measured time after it, in ps. An interval of 0 stands
for a biphase error, which is no edge. A LEAD candidate's pulse is measured by its port's λ, and not used after a frame that is
not valid. -/
def execCandidatePulse (e : Ev) (c : Fin 5) (interval : Nat) (err : Int) (s : State) : Result :=
  let s := s.at e.t
  let m := e.m
  let c := c.val
  let p := pulsePs s m c
  let off := if interval < p then p - interval else interval - p
  if (s.realm m).mode = .dormant then .next s
  else if (c = 1 ∨ c = 2) ∧ p < 100 * off then
    let s := s.bump m (o22_GLITCHES + 16 * c) 1
    let s := s.modCand m c (fun x => { x with glitch := x.glitch + 1, last := if interval = 0 then x.last else some s.now })
    .next (if 4 ≤ (s.cand m c).glitch then loseCand s m c else s)
  else
    let s := if c = 1 ∨ c = 2 then s.modCand m c (fun x => { x with signal := true, glitch := 0, last := some s.now }) else s
    let s := seeCand s m c
    let phase := if 3 ≤ c then (if (s.cand m c).glitch = 0 then leadPhase s m (c - 3) else none)
      else some (wrapPhase p (err - s.oget m o22_TICK_OFFSET * 1000))
    .next (match phase with
      | some x => if selected s m = c ∧ candState s m c = 3 ∧ (pllState s m = 3 ∨ pllState s m = 4) then usePhase s m x else s
      | none => s)

/-- No edge for 3 nominal periods, rounded up to whole XO periods (Table 10-2). -/
def edgesStopped (s : State) (m : RealmId) (c : Nat) : Bool :=
  match (s.cand m c).last with
  | none => true
  | some t =>
    let f := 1000000000000 / pulsePs s m c
    (s.realm m).xo && decide ((3 * 49152000 + f - 1) / f * 1000000000 ≤ (s.now - t) * 49152)

def execCandidateLoss (e : Ev) (c : Fin 5) (s : State) : Result :=
  let s := s.at e.t
  let lost := if c.val = 1 ∨ c.val = 2 then edgesStopped s e.m c.val else !candSignal s e.m c.val
  .next (if lost then loseCand s e.m c.val else s)

def execCandidateQualified (e : Ev) (c : Fin 5) (s : State) : Result :=
  let s := s.at e.t
  let x := s.cand e.m c.val
  .next (if candState s e.m c.val = 2 ∧ candSignal s e.m c.val ∧ x.since + ms (s.onat e.m o22_QUAL_TIME) ≤ s.now
      ∧ (candOff s e.m c.val).natAbs ≤ s.onat e.m o22_PULL_RANGE then
      (setCandState s e.m c.val 3).modCand e.m c.val (fun x => { x with qualAt := s.now })
    else s)

/-- A candidate's offset against PULL_RANGE: beyond it the candidate is ABSENT at once, and keeps its signal (R347). -/
def judgeOffset (s : State) (m : RealmId) (c : Nat) : State :=
  if s.onat m o22_PULL_RANGE < (candOff s m c).natAbs then
    let x := (s.cand m c).signal
    (loseCand s m c).modCand m c (fun y => { y with signal := x })
  else seeCand s m c

/-- CAND_OFFSET of every candidate with a signal, in ppb, by candidate number. -/
def execCandOffsetUpdate (e : Ev) (offsets : List Int) (s : State) : Result :=
  let s := s.at e.t
  let m := e.m
  let s := candNums.foldl (fun s c =>
    match offsets[c]? with
    | none => s
    | some v =>
      if candSignal s m c = false then s
      else
        let s := s.modCand m c (fun x => { x with off := limit31 v })
        judgeOffset (if telemetry s m then s.oput m (o22_CAND_OFFSET + 16 * c) (limit31 v) else s) m c) s
  .next (pairScan s m)

def execRefLocked (e : Ev) (s : State) : Result :=
  let s := s.at e.t
  let long : Bool := match (s.clock e.m).lockSince with
    | some t => decide (t + sec 1 ≤ s.now)
    | none => false
  .next (if selected s e.m ≠ 0xFF ∧ s.onat e.m o22_REF_STATE = 1 ∧ long then publishReady (setRefState s e.m 2) e.m else s)

/-- RANK takes a value (R347). -/
def rankDo (s : State) (m : RealmId) (c v : Nat) : State :=
  let s := s.oput m (o22_RANK + 16 * c) (v : Nat)
  if v = 8 then setCandState s m c 0
  else if candState s m c = 0 then seeCand (setCandState s m c 1) m c else s

/-! ## PLL (R341 to R343, R359 to R367) -/

/-- An acquisition starts. -/
def acquire (s : State) (m : RealmId) : State :=
  let s := s.modClock m (fun c => { c with good := 0, acqStart := s.now, glide := 0 })
  setPll s m 1

/-- Entry to BRING-UP (R360, R367). -/
def clockStart (s : State) (m : RealmId) : State :=
  let s := s.modRealm m (fun r => { r with clock := { ClockSt.reset with rate := s.rate m, auxOn := r.clock.auxOn } })
  let s := candNums.foldl (fun s c => if cobj s m o22_RANK c = 8 then setCandState s m c 0 else s) s
  setDiv (acquire s m) m

/-- Loss of lock (R359; R366, R367). -/
def lossOfLock (s : State) (m : RealmId) : State :=
  let s := (s.bump m o22_UNLOCKS 1).raise m 0x2202 o22_PLL_STATE
  let s := select s m 0xFF true
  let s := s.modClock m (fun c =>
    { c with fails := 0, tickXo := true, masterZero := true, auxLow := true, slew := none, adjust := none,
             steer := s.oget m o22_STEERING, wckRose := none, source := if c.first then 0 else 1 })
  let s := if (s.clock m).first then s else quietPorts (s.modOut m (fun o => { o.silence s.now with pll := Gate.shut })) m
  acquire s m

/-- The end of a window of LOCK_WINDOW XO periods with its count. -/
def execLockWindowEnd (e : Ev) (count : Nat) (s : State) : Result :=
  let s := s.at e.t
  let m := e.m
  let st := pllState s m
  let want := 20 * s.onat m o22_LOCK_WINDOW
  let xo := (s.realm m).xo
  let d := if count < want then want - count else count - want
  if st = 0 ∨ xo = false then .next s
  else if st = 1 ∨ st = 5 then
    let s := s.modClock m (fun c => { c with good := if d ≤ s.onat m o22_LOCK_TOL then c.good + 1 else 0 })
    if s.onat m o22_LOCK_WINDOWS ≤ (s.clock m).good then
      let s := s.modClock m (fun c => { c with good := 0, fails := 0, glide := 0, glideAt := s.now, source := if c.first then 0 else 2 })
      .next (setPll s m 2)
    else .next s
  else .next (if s.onat m o22_UNLOCK_TOL < d then lossOfLock s m else s)

def execCycleSlip (e : Ev) (s : State) : Result :=
  let s := s.at e.t
  let st := pllState s e.m
  .next (if st = 2 ∨ st = 3 ∨ st = 4 then lossOfLock s e.m else s)

/-- G falls by 0.03125; at the eighth step the DCO drives the tick again. -/
def execGlideStep (e : Ev) (s : State) : Result :=
  let s := s.at e.t
  let m := e.m
  let c := s.clock m
  if pllState s m ≠ 2 ∨ s.now < c.glideAt + ns (s.onat m o22_GLIDE_INTERVAL) then .next s
  else if c.glide < 7 then .next (s.modClock m (fun c => { c with glide := c.glide + 1, glideAt := s.now }))
  else
    let s := s.modClock m (fun c =>
      { c with glide := 8, glideAt := s.now, settleAt := s.now, first := false, tickXo := false, source := 2, auxLow := false })
    .next (setPll s m 3)

/-- SETTLING has lasted RELOCK_SETTLE: outputs and master-port inputs return. -/
def execRelockSettleDone (e : Ev) (s : State) : Result :=
  let s := s.at e.t
  let m := e.m
  if pllState s m ≠ 3 ∨ s.now < (s.clock m).settleAt + ns (s.onat m o22_RELOCK_SETTLE) then .next s
  else
    let s := setPll s m 4
    let s := if (s.clock m).masterZero then
        forN 16 (fun p s => if isMaster s m p ∧ portState s m p = 3 then
          s.modPort m p (fun x => { x with inFade := some (true, 0) }) else s) s
      else s
    let s := s.modClock m (fun c => { c with masterZero := false })
    .next (s.modOut m (fun o => { o with pll := if o.pll.closed then Gate.fading false (nextTick s m) else o.pll }))

/-- 10 ms without lock, or 100 ms in FAILED (R365). -/
def execAcquisitionTimeout (e : Ev) (s : State) : Result :=
  let s := s.at e.t
  let m := e.m
  let c := s.clock m
  let st := pllState s m
  if (st = 1 ∧ c.acqStart + ms 10 ≤ s.now) ∨ (st = 5 ∧ c.acqStart + ms 100 ≤ s.now) then
    let s := (s.bump m o22_RELOCK_FAILS 1).modClock m (fun c => { c with fails := c.fails + 1, good := 0, acqStart := s.now })
    .next (if st = 1 ∧ 8 ≤ c.fails + 1 then (setPll s m 5).raise m 0x2203 o22_PLL_STATE else s)
  else .next s

def refPathErr (s : State) (m : RealmId) : Option Nat :=
  if (s.realm m).mode = .bringUp ∨ (s.realm m).mode = .maintenance then none else some 0x17

def refPathDo (s : State) (m : RealmId) (v : Nat) : State := lossOfLock (s.oput m o22_REF_PATH (v : Nat)) m

/-! ## Writes of clock objects (R340, R343, R345, R372) -/

def sampleRateErr (s : State) (m : RealmId) : Option Nat :=
  let f := s.frame m
  if (f.stA ≠ 0 ∧ f.stA ≠ 5) ∨ (f.stB ≠ 0 ∧ f.stB ≠ 5) ∨ (List.range 16).any (fun p => portState s m p != 0) ∨ anyStream s m
  then some 0x18 else none

/-- LOCK_WINDOW, LOCK_TOL and UNLOCK_TOL together. -/
def lockErr (w tol un : Nat) : Option Nat :=
  if 450000 * 20 * w < (tol + 1) * 1000000000 ∨ un ≤ tol then some 0x16 else none

def lockObjectErr (s : State) (m : RealmId) (key v : Nat) : Option Nat :=
  let pick := fun k => if k = key then v else s.onat m k
  lockErr (pick o22_LOCK_WINDOW) (pick o22_LOCK_TOL) (pick o22_UNLOCK_TOL)

def lockObjectDo (s : State) (m : RealmId) (key v : Nat) : State :=
  let s := s.oput m key (v : Nat)
  s.oput m o22_LOCK_BOUND (rne ((s.onat m o22_LOCK_TOL + 1) * 1000000000 : Nat) (20 * s.onat m o22_LOCK_WINDOW))

/-- Objects that do not apply to a candidate (R373). -/
def candObjectErr (c elem : Nat) : Option Nat :=
  if (elem = 5 ∧ c ≠ 1 ∧ c ≠ 2) ∨ (elem = 6 ∧ c ≠ 1) then some 0x16 else none

def phaseAdjustErr (s : State) (m : RealmId) (v : Int) : Option Nat :=
  if v < -1048576 ∨ 1048575 < v then some 0x16
  else if s.onat m o22_REF_STATE ≠ 0 then some 0x18 else none

def phaseAdjustDo (s : State) (m : RealmId) (v : Int) : State :=
  let left := v * 1000000000000000
  setDiv ((setDiv s m).modClock m (fun c => { c with adjust := if v = 0 then none else some (s.now, left) })) m

/-- PULL_RATE takes a value; a pull goes on at the new rate from here. -/
def pullRateDo (s : State) (m : RealmId) (v : Nat) : State := setDiv ((settlePull s m).oput m o22_PULL_RATE (v : Nat)) m

/-- PULL_RANGE takes a value, which limits y and the candidates at once (R336, R347). -/
def pullRangeDo (s : State) (m : RealmId) (v : Nat) : State :=
  let s := (settlePull s m).oput m o22_PULL_RANGE (v : Nat)
  let s := setDiv (s.modClock m (fun c => { c with steer := limitY s m c.steer })) m
  pairScan (candNums.foldl (fun s c => if candSignal s m c then judgeOffset s m c else s) s) m

/-- FREE_SLEW takes a value; the slew goes on at the new rate from the y reached. -/
def freeSlewDo (s : State) (m : RealmId) (v : Nat) : State :=
  let s := slewTick s m
  let s := s.modClock m (fun c => { c with slew := c.slew.map (fun _ => (s.now, c.steer)) })
  s.oput m o22_FREE_SLEW (v : Nat)

/-- TICK_OFFSET takes a value: a pull applies it while a candidate other than LEAD is selected (R345, R353). -/
def tickOffsetDo (s : State) (m : RealmId) (v : Int) : State :=
  let d := (v - s.oget m o22_TICK_OFFSET) * 1000
  let s := s.oput m o22_TICK_OFFSET v
  if selected s m < 3 ∧ d ≠ 0 then
    let e := wrapPhase (pulsePs s m (selected s m)) (s.oget m o22_PHASE_ERROR - d)
    setDiv ((s.oput m o22_PHASE_ERROR e).modClock m (fun c => { c with pulling := true })) m
  else s

def auxBusy (s : State) (m : RealmId) (a elem : Nat) : Option Nat :=
  if elem ≠ 0 ∧ s.onat m (o22_AUX_ENABLE + 16 * a) = 1 then some 0x18 else none

/-- D in units of 2^−24, nearest to f_VCO ÷ AUX_FREQ within its range (R369). -/
def auxDiv (freq : Nat) : Nat :=
  let d := (rne (Config.vcoHz * 2 ^ 24 : Nat) freq).toNat
  Nat.max 82463373 (Nat.min d 16492674416)

def auxEnableDo (s : State) (m : RealmId) (a v : Nat) : State :=
  let s := (s.oput m (o22_AUX_ENABLE + 16 * a) (v : Nat)).modClock m (fun c => { c with auxOn := tput 0 c.auxOn a s.now })
  if v = 1 then
    s.oput m (o22_AUX_ACTUAL + 16 * a) (rne (Config.vcoHz * 1000 * 2 ^ 24 : Nat) (auxDiv (s.onat m (o22_AUX_FREQ + 16 * a))))
  else s

/-- What the spread-spectrum triangle multiplies the frequency by, in 10^−15, `x` being 10^−12 of a period after its top: DOWN
between 1 and 1 − depth, CENTRE between 1 + depth ÷ 2 and 1 − depth ÷ 2, with depth in 0.1% (R370). -/
def sscFactor (mode depth x : Nat) : Int :=
  let w := if x < 500000000000 then x else 1000000000000 - x
  if mode = 0 then 1000000000000000
  else 1000000000000000 + (if mode = 2 then depth * 500000000000 else 0 : Nat) - (2 * depth * w : Nat)

/-- The frequency of M#_AUX0 or M#_AUX1 at this instant, to the nearest mHz; none while it is held low (R359, R369, R370). The
triangle runs at SSC_RATE from a place that the spec does not state (log entry 43). -/
def auxOut (s : State) (m : RealmId) (a : Nat) : Option Nat :=
  if s.onat m (o22_AUX_ENABLE + 16 * a) = 0 ∨ (s.clock m).auxLow then none
  else
    let x := ((s.now - tget 0 (s.clock m).auxOn a) * s.onat m (o22_SSC_RATE + 16 * a) + Config.sscPhase m.val a) % 1000000000000
    let q := sscFactor (s.onat m (o22_SSC_MODE + 16 * a)) (s.onat m (o22_SSC_DEPTH + 16 * a)) x
    some (rne (Config.vcoHz * 1000 * 2 ^ 24 * q) (auxDiv (s.onat m (o22_AUX_FREQ + 16 * a)) * 1000000000000000)).toNat

/-! ## Clock outputs (R338, R359 to R363, R367) -/

/-- What an output derived from f_D carries: held low, a divider of the backup oscillator at a nominal frequency, or the DCO with
a period in units of 2^−45 VCO periods. -/
inductive ClockOut where
  | low
  | backup (hz : Nat)
  | dco (period : Nat)
  deriving DecidableEq, Repr

/-- An output of `num` ÷ `den` periods of f_D; the glide divider is 1.25 − 0.03125 × k (R361). -/
def clockOut (s : State) (m : RealmId) (num den : Nat) : ClockOut :=
  let c := s.clock m
  if c.source = 0 then .low
  else if c.source = 1 then .backup ((if c.rate % 48000 = 0 then 98304000 else 90316800) * den / num)
  else .dco (c.div * (40 - (if pllState s m = 2 then c.glide else 8)) * num / den)

/-- The tick divisor. -/
def tickDivisor (rate : Nat) : Nat := if rate < 88200 then 2048 else if rate < 176400 then 1024 else 512

/-- M#_MCLK0 to M#_MCLK3. -/
def mclkOut (s : State) (m : RealmId) (n : Nat) : ClockOut :=
  match s.onat m (o22_MCLK_SEL + 16 * n) with
  | 0 => .low
  | 1 => clockOut s m 4 1
  | 2 => clockOut s m 2 1
  | _ => clockOut s m 1 1

/-- BCLK of a master port, F × f_s, and its FSYNC, f_s. -/
def bclkOut (s : State) (m : RealmId) (p : Nat) : ClockOut :=
  if isMaster s m p ∧ portState s m p ≠ 0 then clockOut s m (tickDivisor (s.clock m).rate) (frameBits s m p) else .low
def masterFsync (s : State) (m : RealmId) (p : Nat) : ClockOut :=
  if isMaster s m p ∧ portState s m p ≠ 0 then clockOut s m (tickDivisor (s.clock m).rate) 1 else .low

/-- XO periods from tick to tick while the tick comes from the XO: ceil(49,152,000 × 1.0001 ÷ f_s) (R360). -/
def xoTickPeriods (rate : Nat) : Nat := (49152000 * 10001 + 10000 * rate - 1) / (10000 * rate)

/-- A tick is due. From the XO it comes a stated number of XO periods after the last; the first one from the DCO comes no less
than T after the last from the XO (R360, R363). The instant of any other is the DCO's. -/
def tickDue (s : State) (m : RealmId) : Bool :=
  let f := s.frame m
  let c := s.clock m
  if f.ticked = false then true
  else if c.tickXo then decide (f.tickAt + xoTickPeriods c.rate * 1000000000 / 49152 ≤ s.now)
  else if f.tickAt < c.settleAt then decide (f.tickAt + periodPs c.rate ≤ s.now)
  else true

/-! ## Pulse outputs (R356, R357) -/

/-- The mode lets M#_PPS_OUT rise. -/
def ppsOn (s : State) (m : RealmId) : Bool :=
  let v := s.onat m o22_PPS_OUT_MODE
  v == 1 || (v == 2 && candSignal s m 0)

/-- The timebase is at a whole second plus PPS_OFFSET, within ±2 ns. -/
def ppsDue (s : State) (m : RealmId) : Bool :=
  decide (((s.tbNs m : Int) - s.oget m o22_PPS_OFFSET + 2) % 1000000000 ≤ 4)

def execPpsOutPulse (e : Ev) (s : State) : Result :=
  let s := s.at e.t
  .next (if ppsOn s e.m ∧ ppsDue s e.m then
      s.modClock e.m (fun c => { c with ppsHigh := some (s.now + ns (s.onat e.m o22_PPS_WIDTH)) }) else s)

/-- M#_PPS_OUT is held low where its mode or the loss of PTP says so. -/
def ppsHold (s : State) (m : RealmId) : State :=
  if ppsOn s m then s else s.modClock m (fun c => { c with ppsHigh := none })

/-- PPS_OUT_MODE takes a value. -/
def ppsModeDo (s : State) (m : RealmId) (v : Nat) : State := ppsHold (s.oput m o22_PPS_OUT_MODE (v : Nat)) m

/-- The level of M#_PPS_OUT. -/
def ppsOut (s : State) (m : RealmId) : Bool :=
  match (s.clock m).ppsHigh with
  | some t => ppsOn s m && decide (s.now < t)
  | none => false

/-- M#_WCK_OUT rises at a tick of the DCO. -/
def wckTick (s : State) (m : RealmId) : State :=
  let v := s.onat m o22_WCK_OUT_MODE
  let rate := (s.clock m).rate
  let rises := (v == 1 || (v == 2 && s.frameNo m % (rate / baseRate rate) == 0)) && (s.clock m).source == 2
  if rises then s.modClock m (fun c => { c with wckRose := some s.now }) else s

/-- The period of M#_WCK_OUT: held low with mode 0, and from the backup oscillator after a loss of lock. -/
def wckOut (s : State) (m : RealmId) : ClockOut :=
  let rate := (s.clock m).rate
  match s.onat m o22_WCK_OUT_MODE with
  | 0 => .low
  | 1 => clockOut s m (tickDivisor rate) 1
  | _ => clockOut s m (tickDivisor rate * (rate / baseRate rate)) 1

/-- The level of M#_WCK_OUT after a tick of the DCO: high for half of its period (Table 10-1). -/
def wckHigh (s : State) (m : RealmId) : Bool :=
  match wckOut s m, (s.clock m).wckRose with
  | .dco p, some t => decide (2 * (s.now - t) * 983040 * 2 ^ 45 < p * 1000000000)
  | _, _ => false

/-- WCK_OUT_MODE takes a value; mode 0 holds the pin low. -/
def wckModeDo (s : State) (m : RealmId) (v : Nat) : State :=
  (s.oput m o22_WCK_OUT_MODE (v : Nat)).modClock m (fun c => { c with wckRose := if v = 0 then none else c.wckRose })

/-! ## TIME_SET (11 R389) -/

def timeSetErr (s : State) (m : RealmId) (nanos : Nat) : Option Nat :=
  if 1000000000 ≤ nanos then some 0x16
  else if tbState s m = 0 ∨ tbState s m = 4 then none else some 0x17

def timeSetDo (s : State) (m : RealmId) (seconds nanos : Nat) : State :=
  let s := setTb s m (seconds * 1000000000 + nanos)
  if tbState s m = 4 then loseCand s m 0 else s

end Sys2Proof.Machine
end

