-- ==== Sys2Proof/Machine/Keeper.lean ====
section
/-!
DEFINITION. The Keeper (14 R467 to R473): start and firmware patches.
MARKED CHOICES of this file (DESIGN CHOICE, DEDUCED or PRESUMED): log entries 31 and 73.
-/
namespace Sys2Proof.Machine

/-- Keeper RAM is initialised and the Keeper starts from its ROM (R468). -/
def keeperStart (s : State) (m : RealmId) : State :=
  (zeroKeeper s m).modBus m (fun b =>
    { b with remap := false, keeper := false, keeperStart := some s.now, patch := 0, pend := 0, mask := BitVec.allOnes 64,
             enable := false, inService := 0xFF, chained := false, alarm := 0 })

/-- The Keeper runs, with REMAP at 1 (R468, R476). -/
def execKeeperReady (e : Ev) (s : State) : Result :=
  let s := s.at e.t
  let b := (s.realm e.m).bus
  if b.keeperStart.isNone ∨ b.keeper then .next s
  else .next (publishReady (s.modBus e.m (fun b => { b with keeper := true, remap := true, refreshed := s.now })) e.m)

/-! ## Patches (R470 to R473) -/

/-- A write of KC_PATCH with APPLY. -/
def execKcPatchApply (e : Ev) (master : Nat) (v : Nat) (s : State) : Result :=
  let s := s.at e.t
  if controlPlace (s.realm e.m) (busMaster master) 0x80000004 true = .error then
    .next (decodeError s e.m master 0x80000004 (.narrow (toLe 4 v) 0x00F0))
  else .next (if v % 2 = 1 then patchApply s e.m else s)

/-- The Keeper reads vectors of its RAM from `vec` on, with the outcomes of 07 Table 7-2: their bytes, and whether every lane passed
its check. -/
def keeperRead : Nat → State → RealmId → Nat → (List Byte × Bool) × State
  | 0, s, _, _ => (([], true), s)
  | n + 1, s, m, vec =>
    let ((w, p), s) := busLoad s m 0x81 vec
    let ((l, ok), s) := keeperRead n s m (vec + 1)
    ((lanesBytes w ++ l, ok && p == 0), s)

/-- The length that a container's header gives, where its first fields are right (Table 14-1). -/
def patchLen (h : List Byte) : Option Nat :=
  let len := le h 0x10 4
  if h.take 4 == [0x4B, 0x50, 0x41, 0x54] && le h 4 2 == 1 && le h 6 2 == 0 && le h 8 4 == Config.fwVersion && le h 12 4 != 0
      && len % 16 == 0 && decide (112 ≤ len) && decide (len ≤ 262144) && le h 0x14 12 == 0 then some len else none

/-- The signature of a container. -/
def patchSigned (b : List Byte) (len : Nat) : Bool :=
  ecVerify Config.rootKey (sha256 (b.take (len - 64))) (be b (len - 64) 32) (be b (len - 32) 32)

/-- Whether the container in the patch buffer verifies (Table 14-1); one with a lane that fails its check does not (log entry 73). -/
def patchCheck (s : State) (m : RealmId) : Bool × State :=
  let ((h, ok), s) := keeperRead 2 s m 0x4000
  match patchLen h with
  | some len =>
    let ((b, ok'), s) := keeperRead (len / 16 - 2) s m 0x4002
    (ok && ok' && patchSigned (h ++ b) len, s)
  | none => (false, s)

/-- The Keeper ends the check. -/
def execPatchCheckDone (e : Ev) (s : State) : Result :=
  let s := s.at e.t
  let m := e.m
  if (s.realm m).bus.patch ≠ 3 then .next s
  else
    let id := le (lanesBytes ((getVec (s.mem m) 0x81 0x4000).1.map (·.data))) 12 4
    let (ok, s) := patchCheck s m
    if ok then
      let s := s.modBus m (fun b => { b with patch := 1 })
      let s := (s.oput m o2A_PATCH_ID (id : Nat)).oput m o2A_PATCH_STATE 1
      .next (s.raise m 0x2A01 o2A_PATCH_ID)
    else
      let s := s.modBus m (fun b => { b with patch := 2 })
      .next ((s.oput m o2A_PATCH_STATE 2).raise m 0x2A02 o2A_PATCH_STATE)

end Sys2Proof.Machine
end

