-- ==== Sys2Proof/Machine/Hub.lean ====
section
/-!
DEFINITION. The Host Hub and the host port (15 R500 to R527): bursts over the host address space, posted writes, apertures
and their timeout, mailboxes, host registers and interrupts, and the DEV objects (13 Tables 13-14 to 13-16).
MARKED CHOICES of this file (DESIGN CHOICE, DEDUCED or PRESUMED): log entries 44 and 45.
-/
namespace Sys2Proof.Machine

def State.modHub (s : State) (f : Hub → Hub) : State := { s with hub := f s.hub }

/-! ## DEV objects (13 R464; 12 R409) -/

/-- A STR value of ASCII characters, as the integer of its wire form. -/
def strInt (l : String) : Int := ((leBytes (BitVec.ofNat 8 l.length :: l.toList.map (fun c => BitVec.ofNat 8 c.toNat)) : Nat) : Int)

def devMode (d : DMode) : Nat :=
  match d with
  | .off => 16
  | .deepStandby => 17
  | .quiet => 18
  | .hub => 19

/-- Realm contributions by realm number (01 R19). -/
def contributors (s : State) : Nat := allRealms.foldl (fun a m => if contributes s m then a + 2 ^ m.val else a) 0

def realmIx (n : Nat) : RealmId := fin4 n

/-- The value of a DEV object. -/
def devGet (s : State) (k : Nat) : Int :=
  let n := k / 16 % 4
  let row := k - k / 16 % 65536 * 16 + 0x100 * 16
  if k = o01_VENDOR then strInt "Perindene Microsystems"
  else if k = o01_PART then strInt "Foldonte F-780"
  else if k = o01_DEVICE_SERIAL then (Config.deviceSerial % 2 ^ 128 : Nat)
  else if k = o01_MAC_BASE then (Config.macBase % 2 ^ 48 : Nat)
  else if k = o01_DEVICE_PUBKEY then (Config.devicePubkey % 2 ^ 512 : Nat)
  else if k = o01_ROOT_KEY_ID then (Config.rootKeyId % 2 ^ 32 : Nat)
  else if k = o01_CUSTOMER_KEY_HASH then (s.hub.fuse.hash : Nat)
  else if k = o01_KEY_HASH_STATE then (if s.hub.fuse.burned then 1 else 0)
  else if k = o02_DEV_MODE then (devMode s.hub.mode : Nat)
  else if k = o02_VCORE_CONTRIBUTORS then (contributors s : Nat)
  else if k = o02_DIE_TEMP_MAX then tempMax s
  else if row = o02_REALM_MODE ∧ 0x100 ≤ k / 16 % 65536 then (modeCode (s.realm (realmIx n)).mode : Nat)
  else if row = o02_REALM_READY ∧ 0x100 ≤ k / 16 % 65536 then (s.hub.mirror.get (realmIx n) : Nat)
  else s.hget k

/-- Keys of a page's rows. -/
def rowKeys (page : Nat) (rows : List ObjRow) : List Nat :=
  rows.flatMap (fun r => (List.range r.count).map (fun j => okey page (r.base + j) r.elem))

def devKeys : List Nat := rowKeys 1 rows01 ++ rowKeys 2 rows02 ++ rowKeys 3 rows03

/-- The Host Hub refreshes the realms' copy of the DEV objects. -/
def execDevCopyRefresh (t : Time) (s : State) : Result :=
  let s := s.at t
  .next (if s.hub.ready then
      s.modHub (fun h => { h with copy := devKeys.foldl (fun c k => tput (objDflt k) c k (devGet s k)) [] }) else s)

/-- A DEV object as the copy in the realms has it. -/
def copyGet (s : State) (k : Nat) : Int := tget (objDflt k) s.hub.copy k

/-! ## Host interrupts (15 R523 to R527) -/

/-- The highest-priority eligible source. -/
def hostEligible (h : Hub) : Option Nat := (List.range 32).find? (fun n => h.ipend.getLsbD n && !h.imask.getLsbD n)

def clearIpend (h : Hub) (n : Nat) : Hub := { h with ipend := h.ipend &&& ~~~(BitVec.ofNat 32 (2 ^ n)) }

def hostVec (h : Hub) : Nat := (if h.chained then 256 else 0) + h.inService.toNat

/-- Entry: the value that a read of HH_IVEC returns. -/
def hostEntry (h : Hub) : Nat × Hub :=
  if h.inService ≠ 0xFF then (hostVec h, h)
  else
    match (if h.ienable then hostEligible h else none) with
    | some n => (n, { clearIpend h n with inService := BitVec.ofNat 8 n, chained := false })
    | none => (0xFF, h)

/-- Exit, and a chain where a source is eligible. -/
def hostExit (h : Hub) : Hub :=
  if h.inService = 0xFF then h
  else
    match (if h.ienable then hostEligible h else none) with
    | some n => { clearIpend h n with inService := BitVec.ofNat 8 n, chained := true }
    | none => { h with inService := 0xFF, chained := false }

/-- The level that HS_IRQ_N is pulled to: true is low (R524). -/
def hostIrqLow (h : Hub) : Bool := h.inService != 0xFF || (h.ienable && (hostEligible h).isSome)

/-! ## Registers (Table 15-5) -/

def bitIf (n : Nat) (b : Bool) : Nat := if b then 2 ^ n else 0

def boxOf (h : Hub) (n : Nat) : Mailbox := tget Mailbox.empty h.boxes n
def State.modBox (s : State) (n : Nat) (f : Mailbox → Mailbox) : State :=
  s.modHub (fun h => { h with boxes := tmod Mailbox.empty h.boxes n f })

def readyDev (s : State) : Nat :=
  bitIf 0 s.hub.ready + bitIf 1 s.hub.fuses + bitIf 2 s.hub.avs + bitIf 3 s.hub.watcher + 16 * contributors s

def mbSummary (h : Hub) : Nat := (List.range 17).foldl (fun a n => a + bitIf n ((boxOf h n).state == 2)) 0

/-- The value of the register at an offset; HH_IVEC is read by entry. -/
def hhReg (s : State) (off : Nat) : Nat :=
  let h := s.hub
  match off with
  | 0x000 => 0x50450780
  | 0x004 => 0xB1
  | 0x008 => h.latency.toNat * 256 + bitIf 0 h.octalNext
  | 0x010 => h.done * 65536 + h.code
  | 0x014 => h.sticky.toNat
  | 0x020 => readyDev s
  | 0x030 => h.mirror.q0
  | 0x034 => h.mirror.q1
  | 0x038 => h.mirror.q2
  | 0x03C => h.mirror.q3
  | 0x040 => mbSummary h
  | 0x080 => h.ipend.toNat
  | 0x084 => h.imask.toNat
  | 0x088 => bitIf 0 h.ienable
  | 0x08C => (hostEntry h).1
  | 0x094 => hostVec h
  | 0x0C0 => (s.hget o03_WAKE_CAUSE).toNat
  | _ => 0

def wordByte (w off : Nat) : Byte := BitVec.ofNat 8 (w / 256 ^ (off % 4))

/-- One byte written to a register. -/
def hhWriteByte (h : Hub) (a : Nat) (v : Byte) : Hub :=
  let sh := BitVec.ofNat 32 (v.toNat * 256 ^ (a % 4))
  let ones := BitVec.ofNat 32 (255 * 256 ^ (a % 4))
  match a / 4 * 4 with
  | 0x008 =>
    if a = 8 then { h with octalNext := v.getLsbD 0 }
    else if a = 9 ∧ 8 ≤ v.toNat % 32 then { h with latency := BitVec.ofNat 5 v.toNat } else h
  | 0x014 => { h with sticky := h.sticky &&& ~~~sh }
  | 0x080 => { h with ipend := h.ipend &&& ~~~sh }
  | 0x084 => { h with imask := (h.imask &&& ~~~ones) ||| sh }
  | 0x088 => if a = 0x088 then { h with ienable := v.getLsbD 0 } else h
  | _ => h

def hhWrite (h : Hub) (l : List (Nat × Byte)) : Hub :=
  let h := l.foldl (fun h x => hhWriteByte h x.1 x.2) h
  if l.any (fun x => x.1 / 4 * 4 == 0x090) then hostExit h else h

/-! ## Bursts (15 R505 to R514) -/

inductive Region where
  | regs | box (n : Nat) | aper (m : RealmId) | reserved
  deriving DecidableEq, Repr

/-- The region of an address, with its bounds (Table 15-3). -/
def regionOf (a : Nat) : Region × Nat × Nat :=
  if a < 0x1000 then (.regs, 0, 0x1000)
  else if a < 0x10000 then (.reserved, 0x1000, 0x10000)
  else if a < 0x18800 then
    let n := (a - 0x10000) / 0x800
    (.box n, 0x10000 + 0x800 * n, 0x10000 + 0x800 * n + 0x800)
  else if a < 0x10000000 then (.reserved, 0x18800, 0x10000000)
  else if a < 0x50000000 then
    let n := a / 0x10000000
    (.aper (realmIx (n - 1)), n * 0x10000000, (n + 1) * 0x10000000)
  else (.reserved, 0x50000000, 0x100000000)

def ctlLen (c : Nat) : Nat := c % 4096 + 1
def ctlMode (c : Nat) : Nat := c / 4096 % 4
def ctlWrap (c : Nat) : Nat := c / 65536 % 16

def ctlOk (c : Nat) : Bool :=
  decide (c / 1048576 = 0) && decide (c / 16384 % 4 = 0) && ctlMode c != 3
    && (ctlMode c != 1 || (decide (4 ≤ ctlWrap c) && decide (ctlWrap c ≤ 12)))

/-- Address of byte k (R506). -/
def burstAddr (a c k : Nat) : Nat :=
  if ctlMode c = 0 then a + k
  else if ctlMode c = 1 then
    let w := 2 ^ ctlWrap c
    a / w * w + (a + k) % w
  else a + k % 16

def alignOk (a c : Nat) : Bool :=
  if ctlMode c = 2 then a % 16 == 0 && ctlLen c % 16 == 0
  else if ctlMode c = 1 then
    let w := 2 ^ ctlWrap c
    decide (a / w * w + w ≤ (regionOf a).2.2) && decide ((regionOf a).2.1 ≤ a / w * w)
  else true

/-- Bytes inside the region, and CROSS where some lie beyond it (R509). -/
def burstSpan (a c : Nat) : Nat × Nat :=
  let n := ctlLen c
  let hi := (regionOf a).2.2
  if ctlMode c = 0 ∧ hi < a + n then (hi - a, 1) else (n, 0)

/-- The opcode as received: one byte, or in 8D-8D-8D the opcode and its inverse (R503, R504). -/
def opcodeOk (h : Hub) (want : Nat) (op : BitVec 16) : Bool :=
  op.toNat % 256 == want && (!h.octal || op.toNat / 256 == 255 - want)

/-- The code of a burst: its first stop or refusal, else LENGTH, POISON, PENDING or OK. -/
def burstCode (stop : Nat) (short poison pending : Bool) : Nat :=
  if stop ≠ 0 then stop else if short then 9 else if poison then 11 else if pending then 12 else 0

def setOutcome (s : State) (code done : Nat) (ap : Option RealmId) : State :=
  let s := s.modHub (fun h =>
    { h with code := code, done := done, sticky := if code = 0 then h.sticky else h.sticky ||| BitVec.ofNat 32 (2 ^ code) })
  let s := if code = 0 ∨ code = 12 then s else s.hirq 23
  match ap with
  | some m => if code = 3 ∨ code = 4 ∨ code = 5 ∨ code = 11 then s.hirq (18 + m.val) else s
  | none => s

/-- Delivered bytes, zero past those that there are. -/
def padOut (l : List Byte) (clocked : Nat) : List Byte := l.take clocked ++ List.replicate (clocked - l.length) 0

def deliver (s : State) (l : List Byte) (clocked : Nat) : State := s.modHub (fun h => { h with out := padOut l clocked })

/-! ### Transactions of an aperture burst (R510) -/

/-- The pieces of a burst within vectors: address and length. -/
def pieces : Nat → (Nat → Nat) → Nat → Nat → List (Nat × Nat)
  | 0, _, _, _ => []
  | f + 1, ad, n, k =>
    if n ≤ k then []
    else
      let a := ad k
      let l := Nat.min (16 - a % 16) (n - k)
      (a, l) :: pieces f ad n (k + l)

/-- Whole vectors at consecutive addresses join, up to 16 beats. -/
def joinPieces (l : List (Nat × Nat)) : List (Nat × Nat) :=
  (l.foldl (fun acc p =>
    match acc with
    | (a, n) :: r =>
      if a % 16 = 0 ∧ n % 16 = 0 ∧ p.2 = 16 ∧ p.1 = a + n ∧ n < 256 then (a, n + 16) :: r else p :: acc
    | [] => [p]) []).reverse

/-- Transactions of a burst of `n` bytes; a write takes its data in turn. -/
def hubTxs : List (Nat × Nat) → List Byte → List HubTx
  | [], _ => []
  | (a, l) :: r, d => ⟨0xF0000000 + a % 0x10000000, l, d.take l⟩ :: hubTxs r (d.drop l)

/-- The bus operation of a transaction. -/
def txOp (write : Bool) (x : HubTx) : BusOp :=
  let o := x.addr % 16
  if !write then .read ((o + x.len + 15) / 16)
  else if o = 0 ∧ x.len % 16 = 0 then
    .write ((List.range (x.len / 16)).map (fun j => (lanesOf ((x.data.drop (16 * j)).take 16), 0xF)))
  else .narrow (List.replicate o 0 ++ x.data) (BitVec.ofNat 16 ((2 ^ x.len - 1) * 2 ^ o))

/-- Master 3 of a realm can issue. -/
def aperFree (s : State) (m : RealmId) : Bool :=
  !(s.realm m).bus.waiting.any (fun w => w.master == 3) && tget 0 (s.realm m).bus.resetting 3 == 0

def aperWaits (s : State) (m : RealmId) : Bool := (s.realm m).bus.waiting.any (fun w => w.master == 3)

/-- A burst goes on until it ends or waits; the flag says that it has ended. -/
def runBurst : Nat → State → Burst → State × Burst × Bool
  | 0, s, b => (s, b, true)
  | f + 1, s, b =>
    match b.txs with
    | [] => (s, b, true)
    | x :: r =>
      if b.issued then
        if aperWaits s b.realm then (s, b, false)
        else
          let a := tget BusAns.none (s.realm b.realm).bus.answers 3
          if a.error then (s, { b with code := 3, txs := [], issued := false }, true)
          else
            let bytes := if b.write then x.data else ((a.data.flatMap lanesBytes).drop (x.addr % 16)).take x.len
            runBurst f s { b with txs := r, got := b.got ++ bytes, issued := false,
                                  poison := b.poison || (!b.write && a.poison.any (· != 0)) }
      else if (s.realm b.realm).mode = .dormant then (s, { b with code := 5, txs := [] }, true)
      else if aperFree s b.realm = false then (s, b, false)
      else runBurst f (issue s b.realm 3 x.addr (txOp b.write x)) { b with issued := true }

/-- The outcome of a burst that has ended. -/
def endBurst (s : State) (b : Burst) : State :=
  let code := burstCode b.code b.short b.poison false
  let s := if b.write then s else deliver s b.got b.clocked
  setOutcome s code (if b.code = 0 then b.len else b.got.length) (some b.realm)

def burstFuel (b : Burst) : Nat := 2 * b.txs.length + 2

/-- Posted writes drain in order; those left wait for the one that is held. MODEL'S CHOICE (log entry 44): the 2 ms of 01 R27
count from the start of a posted write's drain, and from the command of a READ even while it waits for posted writes. -/
def drainAll : Nat → State → State
  | 0, s => s
  | f + 1, s =>
    match s.hub.drain with
    | some b =>
      let (s, b, fin) := runBurst (burstFuel b) s b
      if fin then drainAll f (endBurst (s.modHub (fun h => { h with drain := none })) b)
      else s.modHub (fun h => { h with drain := some b })
    | none =>
      match s.hub.posted with
      | [] => s
      | b :: r => drainAll f (s.modHub (fun h => { h with posted := r, drain := some { b with since := s.now } }))

/-- A posted write to a realm has not drained. -/
def writesLeft (h : Hub) (m : RealmId) : Bool :=
  h.posted.any (fun b => b.realm == m) || (match h.drain with
    | some b => b.realm == m
    | none => false)

def anyWrites (h : Hub) : Bool := !h.posted.isEmpty || h.drain.isSome

/-! ### Mailboxes (R516 to R518) -/

/-- The realm of a mailbox. -/
def boxRealm (n : Nat) : RealmId := realmIx (n / 4)
def notifyBox (n : Nat) : Bool := decide (n < 16) && n % 4 == 3

/-- A doorbell would be answered: the realm is up and its Keeper runs. -/
def boxServed (s : State) (n : Nat) : Bool :=
  16 ≤ n || ((s.realm (boxRealm n)).mode != .dormant && (s.realm (boxRealm n)).bus.keeper)

def ringBell (s : State) (n seq : Nat) : State :=
  let s := s.modBox n (fun b => { b with state := 1, seq := seq % 65536, abandoned := false, length := 0, taken := none, rung := s.now })
  if n < 16 then s.irq (boxRealm n) 11 else s

/-- Doorbells and a READ or READ_STATUS that waited for posted writes. -/
def ringReady (s : State) : State :=
  let (go, wait) := s.hub.bells.partition (fun b => 16 ≤ b.1 || !writesLeft s.hub (boxRealm b.1))
  go.foldl (fun s b => ringBell s b.1 b.2) (s.modHub (fun h => { h with bells := wait }))

def serveRead (s : State) : State :=
  match s.hub.read with
  | none => s
  | some b =>
    if b.status then
      (if anyWrites s.hub then s
       else deliver (s.modHub (fun h => { h with read := none })) (toLe 4 (hhReg s 0x010)) b.clocked)
    else if writesLeft s.hub b.realm then s
    else
      let (s, b, fin) := runBurst (burstFuel b) s b
      if fin then endBurst (s.modHub (fun h => { h with read := none })) b
      else s.modHub (fun h => { h with read := some b })

/-- The Host Hub goes on with what it holds. -/
def pump (force : Bool) (s : State) : State :=
  let s := if force ∨ s.hub.drain.isSome ∨ s.hub.read.isSome ∨ !s.hub.bells.isEmpty then drainAll 8 s else s
  ringReady (serveRead s)

/-- The bytes that READ sees of BUFFER (Table 15-7). -/
def boxBytes (b : Mailbox) : List Byte :=
  if b.state = 1 then [] else if b.state = 0 then b.buffer else b.buffer.take b.length

def boxByte (b : Mailbox) (off : Nat) : Byte :=
  if off < 4 then wordByte (b.seq * 65536 + bitIf 2 b.abandoned + b.state) off
  else if 8 ≤ off ∧ off < 12 then wordByte (if 2 ≤ b.state then b.length else 0) off
  else if 0x400 ≤ off then (boxBytes b).getD (off - 0x400) 0
  else 0

def putByte (l : List Byte) (i : Nat) (v : Byte) : List Byte :=
  if i < l.length then l.set i v else l ++ List.replicate (i - l.length) 0 ++ [v]

/-- BUFFER written: READY and TAKEN discard the result and become EMPTY. -/
def writeBuffer (s : State) (n : Nat) (l : List (Nat × Byte)) : State :=
  s.modBox n (fun b =>
    let base := if b.state = 0 then b else { b with state := 0, buffer := [], length := 0 }
    { base with buffer := l.foldl (fun a x => putByte a (x.1 - 0x400) x.2) base.buffer })

/-- A write of bytes in a mailbox window, and its code. -/
def writeBox (s : State) (n : Nat) (l : List (Nat × Byte)) : State × Nat :=
  let b := boxOf s.hub n
  let bell := l.filter (fun x => decide (4 ≤ x.1) && decide (x.1 < 8))
  let buf := l.filter (fun x => decide (0x400 ≤ x.1))
  let at' : Nat → Nat := fun o => ((bell.find? (fun x => x.1 == o)).map (·.2.toNat)).getD 0
  let seq : Nat := at' 6 + 256 * at' 7
  if notifyBox n then (s, if bell = [] ∧ buf = [] then 0 else 6)
  else
    let bellCode : Nat := if bell = [] then 0 else if b.state ≠ 0 then 10 else if boxServed s n = false then 5 else 0
    let bufCode : Nat := if buf ≠ [] ∧ b.state = 1 then 6 else 0
    let s := if buf = [] ∨ bufCode ≠ 0 then s else writeBuffer s n buf
    let s := if bell = [] ∨ bellCode ≠ 0 then s else pump true (s.modHub (fun h => { h with bells := h.bells ++ [(n, seq)] }))
    (s, if bellCode ≠ 0 then bellCode else bufCode)

/-- A result read leaves READY for TAKEN. -/
def resultTaken (s : State) (n : Nat) : State :=
  s.modBox n (fun b => if b.state = 2 then { b with state := 3 } else b)

/-! ### READ and WRITE -/

/-- The port takes commands: the Host Hub is ready and no READ is in progress (R502). -/
def portOpen (s : State) : Bool := s.hub.ready && s.hub.read.isNone

/-- A command begins: the protocol mode is the one last written (R501). -/
def startCmd (s : State) : State := s.modHub (fun h => { h with octal := h.octalNext })

/-- The first refusal of a burst. -/
def refusal (h : Hub) (want : Nat) (op : BitVec 16) (a c : Nat) : Nat :=
  if opcodeOk h want op = false ∨ ctlOk c = false then 8
  else if alignOk a c = false then 7
  else 0

/-- A READ of registers or of a mailbox window. -/
def readLocal (s : State) (rg : Region) (lo : Nat) (addrs : List Nat) (stop : Nat) (short : Bool) (clocked len : Nat) : State :=
  match rg with
  | .regs =>
    let ivec := (addrs.take clocked).any (fun a => a / 4 * 4 == 0x08C)
    let s := deliver s (addrs.map (fun a => wordByte (hhReg s (a / 4 * 4)) a)) clocked
    let s := if ivec then s.modHub (fun h => (hostEntry h).2) else s
    setOutcome s (burstCode stop short false false) (if stop = 0 then len else addrs.length) none
  | .box n =>
    let b := boxOf s.hub n
    let res := addrs.any (fun a => decide (0x400 ≤ a - lo))
    let s := deliver s (addrs.map (fun a => boxByte b (a - lo))) clocked
    let s := if res then resultTaken s n else s
    setOutcome s (burstCode stop short false (res && b.state == 1)) (if stop = 0 then len else addrs.length) none
  | _ => setOutcome (deliver s [] clocked) 2 0 none

/-- READ: opcode bytes, ADDRESS, CONTROL and the number of bytes that HS_CS_N lets the host clock. -/
def execXspiRead (t : Time) (op : BitVec 16) (addr : BitVec 32) (ctl : Nat) (clocked : Nat) (s : State) : Result :=
  let s := s.at t
  if portOpen s = false then .next s
  else
    let s := startCmd s
    let a := addr.toNat
    let r := refusal s.hub 0x0B op a ctl
    if r ≠ 0 then .next (setOutcome (deliver s [] 0) r 0 none)
    else
      let (rg, lo, _) := regionOf a
      let (n, stop) := burstSpan a ctl
      let len := ctlLen ctl
      let short := decide (clocked ≠ len)
      match rg with
      | .aper m =>
        if (s.realm m).mode = .dormant then .next (setOutcome (deliver s [] clocked) 5 0 (some m))
        else
          let txs := hubTxs (joinPieces (pieces n (burstAddr a ctl) n 0)) []
          let b : Burst := ⟨false, m, false, txs, [], clocked, len, stop, short, false, s.now, false⟩
          .next (pump true (s.modHub (fun h => { h with read := some b })))
      | rg => .next (readLocal s rg lo ((List.range n).map (burstAddr a ctl)) stop short clocked len)

/-- WRITE: opcode bytes, ADDRESS, CONTROL and the bytes clocked. -/
def execXspiWrite (t : Time) (op : BitVec 16) (addr : BitVec 32) (ctl : Nat) (data : List Byte) (s : State) : Result :=
  let s := s.at t
  if portOpen s = false then .next s
  else
    let s := startCmd s
    let a := addr.toNat
    let r := refusal s.hub 0x02 op a ctl
    if r ≠ 0 then .next (setOutcome s r 0 none)
    else
      let (rg, lo, _) := regionOf a
      let (n, stop) := burstSpan a ctl
      let len := ctlLen ctl
      let short := decide (data.length ≠ len)
      let bytes := if data.length < len then [] else ((List.range n).map (burstAddr a ctl)).zip data
      let done := if stop = 0 then len else n
      match rg with
      | .regs => .next (setOutcome (s.modHub (fun h => hhWrite h bytes)) (burstCode stop short false false) done none)
      | .box k =>
        let (s, code) := writeBox s k (bytes.map (fun x => (x.1 - lo, x.2)))
        .next (setOutcome s (burstCode (if code = 0 then stop else code) short false false) (if code = 0 then done else 0) none)
      | .aper m =>
        if (s.realm m).mode = .dormant then .next (setOutcome s 5 0 (some m))
        else if 2 ≤ s.hub.posted.length + (if s.hub.drain.isSome then 1 else 0) then .next (setOutcome s 6 0 (some m))
        else
          let txs := if data.length < len then [] else hubTxs (joinPieces (pieces n (burstAddr a ctl) n 0)) data
          let b : Burst := ⟨false, m, true, txs, [], data.length, len, stop, short, false, s.now, false⟩
          .next (s.modHub (fun h => { h with posted := h.posted ++ [b] }))
      | .reserved => .next (setOutcome s 2 0 none)

/-- READ_STATUS waits for the posted writes of all realms (R512). -/
def execReadStatus (t : Time) (s : State) : Result :=
  let s := s.at t
  if portOpen s = false then .next s
  else .next (pump true ((startCmd s).modHub (fun h =>
    { h with read := some ⟨true, 0, false, [], [], 4, 4, 0, false, false, s.now, false⟩ })))

def execReadId (t : Time) (s : State) : Result :=
  let s := s.at t
  if portOpen s = false then .next s
  else .next (deliver (startCmd s) (toLe 4 0x50450780 ++ toLe 4 0xB1) 8)

/-- The oldest posted write drains, when it is one to this realm. -/
def execPostedWriteDrain (e : Ev) (s : State) : Result :=
  let s := s.at e.t
  match s.hub.drain, s.hub.posted with
  | none, b :: r =>
    if b.realm = e.m then
      let (s, b, fin) := runBurst (burstFuel b) (s.modHub (fun h => { h with posted := r })) { b with since := s.now }
      .next (pump false (if fin then endBurst s b else s.modHub (fun h => { h with drain := some b })))
    else .next s
  | _, _ => .next (pump false s)

/-- An access that has not completed within 2 ms (01 R27). -/
def timeoutBurst (s : State) (b : Burst) : State :=
  let s := s.hput (o02_APERTURE_TIMEOUTS + 16 * b.realm.val)
    ((Nat.min ((s.hget (o02_APERTURE_TIMEOUTS + 16 * b.realm.val)).toNat + 1) 0xFFFFFFFF : Nat) : Int)
  endBurst (if b.issued then s.resetMaster b.realm 3 else s) { b with code := 4, txs := [] }

def burstDue (s : State) (m : RealmId) (b : Burst) : Bool := !b.status && b.realm == m && decide (b.since + ms 2 ≤ s.now)

/-- The oldest access to the realm that is due is abandoned: the posted write that drains, else the READ in progress, whether
or not a posted write to another realm drains. -/
def execApertureTimeout (e : Ev) (s : State) : Result :=
  let s := s.at e.t
  match s.hub.drain.filter (burstDue s e.m), s.hub.read.filter (burstDue s e.m) with
  | some b, _ => .next (pump false (timeoutBurst (s.modHub (fun h => { h with drain := none })) b))
  | none, some b => .next (pump false (timeoutBurst (s.modHub (fun h => { h with read := none })) b))
  | none, none => .next s

/-- A write of HH_HOSTCFG.OCTAL: the next command uses the mode (R501). -/
def execOctalSwitch (t : Time) (v : Bool) (s : State) : Result :=
  let s := s.at t
  .next (if portOpen s then setOutcome ((startCmd s).modHub (fun h => { h with octalNext := v })) 0 1 none else s)

/-- A WRITE of bytes in BUFFER of a mailbox. -/
def execMbBufferWrite (t : Time) (box : Fin 17) (off : Nat) (data : List Byte) (s : State) : Result :=
  let s := s.at t
  if portOpen s = false then .next s
  else
    let l := (data.take (0x400 - off)).mapIdx (fun i v => (0x400 + off + i, v))
    let (s, code) := writeBox (startCmd s) box.val l
    .next (setOutcome s code (if code = 0 then l.length else 0) none)

/-- A WRITE of MB_DOORBELL with a SEQ. -/
def execMbDoorbell (t : Time) (box : Fin 17) (seq : Nat) (s : State) : Result :=
  let s := s.at t
  if portOpen s = false then .next s
  else
    let (s, code) := writeBox (startCmd s) box.val ((toLe 4 (seq * 65536)).mapIdx (fun i v => (4 + i, v)))
    .next (setOutcome s code (if code = 0 then 4 else 0) none)

/-- A READ of bytes of BUFFER. -/
def execResultRead (t : Time) (box : Fin 17) (off : Nat) (len : Nat) (s : State) : Result :=
  let s := s.at t
  if portOpen s = false then .next s
  else
    let lo := 0x10000 + 0x800 * box.val
    let n := Nat.min len (0x400 - off)
    .next (readLocal (startCmd s) (.box box.val) lo ((List.range n).map (fun i => lo + 0x400 + off + i)) 0 false n n)

/-- A READ of HH_IVEC; its four bytes are delivered. -/
def execHhIvecRead (t : Time) (s : State) : Result :=
  let s := s.at t
  if portOpen s = false then .next s
  else .next (readLocal (startCmd s) .regs 0 [0x8C, 0x8D, 0x8E, 0x8F] 0 false 4 4)

/-- A WRITE of HH_EOI. -/
def execHhEoiWrite (t : Time) (_v : BitVec 32) (s : State) : Result :=
  let s := s.at t
  .next (if portOpen s then setOutcome ((startCmd s).modHub hostExit) 0 4 none else s)

/-! ## Realm-side events that let a burst go on -/

/-- A bank completes its change of power state; transactions that waited for it are served. -/
def execDeepBankTransition (e : Ev) (bank : Fin 64) (s : State) : Result :=
  let s := s.at e.t
  let b := bank.val
  match ((s.realm e.m).deepPow b).target with
  | some (v, _) =>
    let d := (s.realm e.m).deepPow b
    let s := if v = 2 ∨ d.st = 2 then dropDeep s e.m b else s
    let s := s.modMemory e.m (fun x => { x with deep := tput DeepPow.reset x.deep b ⟨v, none, false⟩ })
    let s := s.oput e.m (o18_POWER_STATE + 16 * (0x40 + b)) (v : Nat)
    let s := serveWaits (s.realm e.m).bus.waiting.length s e.m (0x40 + b)
    let s := if d.retain then powerStateDo s e.m b 1 else s
    .next (pump false s)
  | none => .next s

/-- A reset master has drained (14 R490). -/
def execMasterResetComplete (e : Ev) (master : Nat) (s : State) : Result :=
  let s := s.at e.t
  .next (pump false (s.modBus e.m (fun b => { b with resetting := tput 0 b.resetting master 0 })))

/-- A 32-bit register write: by a bus master of the realm (14 Tables 14-3 to 14-13), or by the host (`master` 6) to a Host
Hub register (Table 15-5). -/
def execRegisterWrite (e : Ev) (master : Nat) (addr : Nat) (v : BitVec 32) (s : State) : Result :=
  if master = 6 then
    let s := s.at e.t
    let l := (toLe 4 v.toNat).mapIdx (fun i x => (addr % 0x1000 / 4 * 4 + i, x))
    .next (if portOpen s then setOutcome ((startCmd s).modHub (fun h => hhWrite h l)) 0 4 none else s)
  else
    let o := addr % 16 / 4 * 4
    busTrans e master (addr / 4 * 4) (.narrow (List.replicate o 0 ++ toLe 4 v.toNat) (BitVec.ofNat 16 (15 * 2 ^ o))) s

/-! ## Host Hub reset (R520; 01 R26; 16 Table 16-5) -/

/-- Every mailbox becomes EMPTY; registers, HH_READY_Mn among them, bursts and the objects of DEV:01 and DEV:02 return to reset. -/
def hubReset (s : State) : State :=
  let h := s.hub
  let s := s.modHub (fun _ =>
    { Hub.reset with mode := h.mode, objs := h.objs.filter (fun x => x.1 / 1048576 == 3), copy := h.copy,
                     released := s.now, vout := h.vout, voutAt := h.voutAt, power := h.power, fuse := h.fuse,
                     testEn := h.testEn, tap := h.tap })
  let s := s.hput o02_SWEEP_REALM (match sweeper s with
    | some m => (m.val : Int)
    | none => 0xFF)
  mergeVcore (allRealms.foldl (fun s m => s.resetMaster m 3) s)

/-- HS_RST_N is asserted and released. -/
def execHsRstN (t : Time) (s : State) : Result :=
  let s := s.at t
  .next (hubReset s)

/-- The Host Hub is ready: fuses read, the regulator answers, the watcher configured (R502; 16 R540). -/
def execHubReady (t : Time) (s : State) : Result :=
  let s := s.at t
  .next (if s.hub.mode = .hub ∧ s.hub.power.seq = 0 then
      allRealms.foldl showReady (s.modHub (fun h => { h with ready := true, fuses := true, avs := true, watcher := true })) else s)

end Sys2Proof.Machine
end

