-- ==== Sys2Proof/Machine/Modes.lean ====
section
/-!
DEFINITION. Realm modes (16 R546 to R557; 17 R562): reset, start, stop, mode requests and the transitions that take effect at
frame boundaries.
MARKED CHOICES of this file (DESIGN CHOICE, DEDUCED or PRESUMED): log entries 8, 15, 47, 49 and 50.
-/
namespace Sys2Proof.Machine

/-! ## Pairing state that mode changes use -/

def State.pair (s : State) (m : RealmId) : PairSt := (s.realm m).pair
def State.modPair (s : State) (m : RealmId) (f : PairSt → PairSt) : State := s.modRealm m (fun r => { r with pair := f r.pair })

def beaconTimeout (s : State) (m : RealmId) : Time := ms (s.onat m o30_BEACON_TIMEOUT)

/-- The ROLE of the partner's last beacon, when one has arrived within BEACON_TIMEOUT. -/
def partnerRole (s : State) (m : RealmId) : Option Nat :=
  match (s.pair m).heard with
  | some (t, b) => if s.now ≤ t + beaconTimeout s m then some b.role else none
  | none => none

/-- PAIR_ROLE, which M#_PAIR_ROLE shows (R562). -/
def setRole (s : State) (m : RealmId) (v : Nat) : State := s.oput m o30_PAIR_ROLE (v : Nat)
def pairRoleHigh (s : State) (m : RealmId) : Bool := (s.realm m).mode != .dormant && s.onat m o30_PAIR_ROLE == 1

/-- The partner of a realm that left ACTIVE has taken over (08 R296). -/
def partnerTook (s : State) (m : RealmId) : Bool :=
  match (s.pair m).heard with
  | some (_, b) => b.role == 1 || b.role == 3
  | none => false

/-! ## What a reset or a stop ends -/

/-- The realm's aperture bursts go on without the transaction that they wait for; in DORMANT they end with NOT_SERVED. -/
def freeBursts (s : State) (m : RealmId) : State :=
  let f : Burst → Burst := fun b => if b.realm = m ∧ b.status = false then { b with issued := false } else b
  s.modHub (fun h => { h with drain := h.drain.map f, read := h.read.map f })

/-- Every mailbox of the realm becomes EMPTY; one that was PENDING sets ABANDONED (15 R520). -/
def emptyBoxes (s : State) (m : RealmId) : State :=
  forN 4 (fun b s => s.modBox (4 * m.val + b) (fun x => { Mailbox.empty with abandoned := x.state == 1 })) s

/-- A sweep of the realm ends (01 R23). -/
def endSweep (s : State) (m : RealmId) : State :=
  if (s.realm m).gov.sweepStart.isSome then
    (s.modGov m (fun g => { g with sweepStart := none })).hput o02_SWEEP_REALM 0xFF
  else s

/-! ## Realm reset (R551, R557) -/

def allMasters : Tbl Nat → Time → Tbl Nat := fun t now => forN 16 (fun k t => tput 0 t k (now + 1)) t

/-- Every object at its default, banks EMPTY, program memories, coefficient regions and deep banks zero, every bus master
reset, mode DORMANT. -/
def realmReset (s : State) (m : RealmId) : State :=
  let s := endSweep s m
  let s := s.modRealm m (fun r =>
    { Realm.reset with xo := r.xo, sdref := r.sdref, memory := { MemSt.reset with initSince := some s.now },
                       out := { OutSt.reset with pinLow := r.out.pinLow, pinRose := r.out.pinRose, cut := true, silentAt := s.now },
                       bus := { BusSt.reset with resetting := allMasters [] s.now } })
  let s := forN 64 (fun b s => dropDeep s m b) (zeroRetained s m)
  let s := mirrorReady (emptyBoxes (freeBursts s m) m) m 0
  pump true (mergeVcore s)

/-! ## Entry to BRING-UP: warm and cold start (R552 to R555) -/

/-- The records of an init section as ranges of its class. -/
def initRanges (img : List Byte) (sc : Sec) (cls : Nat) : List VRange :=
  let b := secBytes img sc.type sc.tile
  (initRecords b (b.length / 16) 0).flatMap (fun r => classRanges cls sc.tile r.2.1 r.2.2)

/-- An image that a warm start may keep (R553). -/
def warmCapable (img : List Byte) : Bool :=
  let banks := (footRanges img).map (·.bank)
  (secTable img).all (fun sc =>
    if sc.type = 2 then false
    else if sc.type = 3 then (initRanges img sc 1).all (fun r => decide (4096 ≤ r.lo))
    else if sc.type = 8 then (initRanges img sc 2).all (fun r => banks.contains r.bank)
    else true)

/-- Objects after a warm start: RO objects return to their defaults, but that REPLICA_FAILED and GOVERNOR_DEGRADED stay until realm
reset (02 R43; log entry 49). -/
def warmObjs (t : Tbl Int) : Tbl Int :=
  (t.map (fun x => if x.1 = o12_STATUS then (x.1, 2 * (x.2 / 2 % 2)) else x)).filter (fun x =>
    x.1 = o12_REPLICA_FAILED || (x.1 = o12_STATUS && x.2 != 0) || match objRow (x.1 / 1048576) (x.1 / 16 % 65536) (x.1 % 16) with
    | some r => r.acc != .ro
    | none => false)

/-- The frame sequencer at a warm start: the image that was ACTIVE lies ADMITTED in the inactive bank. -/
def warmFrame (f : FrameSt) : FrameSt :=
  let img := activeImg f
  if bankSt f f.active = 4 ∧ warmCapable img then
    let g := { FrameSt.reset with active := otherBank f.active }
    setBankImg (setBankSt g f.active 3) f.active img
  else FrameSt.reset

/-- What a parked realm keeps is kept; everything else starts as after realm reset. -/
def startState (r : Realm) (now : Time) : Realm :=
  let base : Realm :=
    { Realm.reset with xo := r.xo, sdref := r.sdref, bringUpAt := now, tb := ⟨0, now, Config.rateFracNominal⟩,
                       out := { OutSt.reset with pinLow := r.out.pinLow, pinRose := r.out.pinRose },
                       bil := { BilSt.reset with tokAt := now } }
  if r.parked then
    { base with objs := warmObjs r.objs, frame := warmFrame r.frame,
                memory := { MemSt.reset with deep := r.memory.deep, scrubBank := r.memory.scrubBank, scrubVec := r.memory.scrubVec,
                                             scrubKept := r.memory.scrubKept },
                gov := { GovSt.reset with measured := r.gov.measured, norms := r.gov.norms, sweeps := r.gov.sweeps },
                bus := { r.bus with waiting := [], answers := [], keeper := false },
                pair := { PairSt.reset with forwards := r.pair.forwards } }
  else { base with memory := r.memory, bus := r.bus }

/-- The realm enters BRING-UP; the banks of the network are switched ON (11 R403). -/
def bringUp (s : State) (m : RealmId) : State :=
  let s := s.modRealm m (fun r => startState r s.now)
  let s := s.modMemory m (fun x => { x with initSince := none, startWaits := false })
  let s := s.modPtp m (fun x => { x with port := if s.onat m o24_PTP_PORT = 1 then 1 else 0 })
  let f := s.frame m
  let s := if f.stA = 3 ∨ f.stB = 3 then
      ((s.oput m o14_BANK_STATE_A (f.stA : Nat)).oput m o14_BANK_STATE_B (f.stB : Nat)).oput m o14_ACTIVE_BANK (f.active.val : Nat)
    else s
  let s := clockStart (keeperStart (zeroLost s m) m) m
  let s := holdNetBanks (setMode s m .bringUp) m
  let o := (s.realm m).out
  let s := if o.pinLow ∧ s.now < o.pinRose ∧ s.onat m o20_MUTE_PIN_ENABLE = 1 then pinMute s m else s
  publishReady (mergeVcore s) m

/-- Realms may leave DORMANT: the device is in HUB, and no power sequence runs (01 R34). -/
def hubUp (s : State) : Bool := s.hub.mode == .hub && s.hub.power.seq == 0

/-- REALM_START (R546; 07 R270; 18 R590). -/
def realmStartErr (s : State) (m : RealmId) : Option Nat :=
  if (s.realm m).mode ≠ .dormant ∨ s.hub.testEn ∨ hubUp s = false then some 0x17 else none

def realmStartDo (s : State) (m : RealmId) : State :=
  if (s.realm m).memory.initSince.isSome then s.modMemory m (fun x => { x with startWaits := true })
  else bringUp s m

/-- Program memories and coefficient regions are initialised; a start that waited takes effect, while the device is in HUB. -/
def execResetInitialisationDone (e : Ev) (s : State) : Result :=
  let s := s.at e.t
  let x := (s.realm e.m).memory
  if x.initSince.isNone then .next s
  else
    let s' := s.modMemory e.m (fun x => { x with initSince := none, startWaits := false })
    .next (if x.startWaits ∧ hubUp s = true then bringUp s' e.m else s')

/-! ## REALM_STOP (R549, R550) -/

def mbistRuns (s : State) (m : RealmId) : Bool := s.onat m o18_MBIST_STATE == 1

def realmStopErr (s : State) (m : RealmId) : Option Nat :=
  if (s.realm m).trans.isSome ∨ mbistRuns s m then some 0x18 else none

def realmStopDo (s : State) (m : RealmId) : State :=
  if (s.realm m).mode = .dormant then s else startTrans s m .dormant true

def portsDisabled (s : State) (m : RealmId) : Bool := (List.range 16).all (fun p => portState s m p == 0)

/-- After the fade, at the first tick after every port is DISABLED: tiles and sequencer stop, the Keeper halts, the realm is
parked. -/
def execRealmStopComplete (e : Ev) (s : State) : Result :=
  let s := s.at e.t
  let m := e.m
  match (s.realm m).trans with
  | some t =>
    if t.stop ∧ t.begun ∧ t.since + fadePs ≤ s.now ∧ portsDisabled s m then
      let st := loadState s m
      let s := if st = 1 ∨ st = 2 then abortLoad s m else s
      let s := setMode (setRole (endSweep (refuseSwap s m) m) m 0) m .dormant
      let s := s.modFrame m (fun f => { f with running := false, ticked := false, armed := none })
      let s := s.modRealm m (fun r =>
        { r with parked := true, trans := none, safeDue := none, tiles := [],
                 bus := { r.bus with keeper := false, keeperStart := none, waiting := [] } })
      .next (pump true (mergeVcore (mirrorReady (freeBursts s m) m 0)))
    else .next s
  | none => .next s

/-! ## MODE_REQUEST (R546, R547; 17 Table 17-1) -/

/-- READY bits KEEPER, GOVERNOR and PLL; a realm without M#_XO does not enter RUN (01 R18). -/
def runReady (s : State) (m : RealmId) : Bool :=
  (s.realm m).xo && (s.realm m).bus.keeper && s.onat m o12_T_ADM != 0xFFFFFFFF && s.onat m o22_PLL_STATE == 4

def modeRequestErr (s : State) (m : RealmId) (v : Nat) : Option Nat :=
  let r := s.realm m
  let paired := s.onat m o30_PAIR_MODE == 1
  if 20 ≤ v ∨ (8 ≤ v ∧ v < 16) then some 0x16
  else if r.trans.isSome ∨ mbistRuns s m then some 0x18
  else if v = modeCode r.mode ∧ v ≠ 0 ∧ v ≠ 5 then none
  else
    match v, r.mode with
    | 1, .maintenance => none
    | 2, .bringUp => if paired then some 0x17 else if runReady s m then none else some 0x18
    | 2, .active => none
    | 2, .standby => if partnerRole s m = some 1 then some 0x18 else none
    | 3, .bringUp => if !paired then some 0x17 else if !runReady s m || partnerRole s m != some 1 then some 0x18 else none
    | 3, .run => if !paired then some 0x17 else if !runReady s m || partnerRole s m != some 1 then some 0x18 else none
    | 4, .bringUp => if !paired then some 0x17 else if runReady s m then none else some 0x18
    | 4, .run => if !paired then some 0x17 else if runReady s m then none else some 0x18
    | 7, .bringUp => none
    | 7, .run => none
    | 7, .safe => none
    | _, _ => some 0x17

def modeRequestDo (s : State) (m : RealmId) (v : Nat) : State :=
  match modeOf v with
  | some x => if x = (s.realm m).mode then s else startTrans s m x false
  | none => s

/-! ## Transitions at frame boundaries -/

def endTrans (s : State) (m : RealmId) : State :=
  let s := s.modRealm m (fun r => { r with trans := none })
  match (s.realm m).safeDue with
  | some c => enterSafe (s.modRealm m (fun r => { r with safeDue := none })) m c
  | none => s

def beginTrans (s : State) (m : RealmId) : State :=
  s.modRealm m (fun r => { r with trans := r.trans.map (fun t => { t with begun := true, since := s.now }) })

def modeGate (s : State) (m : RealmId) (g : Gate) : State := s.modOut m (fun o => { o with mode := g })

/-- The mode gate closes or opens with a fade; an open or closed gate stays. -/
def fadeMode (s : State) (m : RealmId) (closed : Bool) : State :=
  if (s.realm m).out.mode.closed = closed then s else modeGate s m (Gate.fading closed s.now)

/-- Entry to SAFE at a frame boundary (08 R295). -/
def takeSafe (s : State) (m : RealmId) (cause : Nat) : State :=
  let old := (s.realm m).mode
  let s := s.modRealm m (fun r => { r with safeFrom := old, safeDue := none })
  let s := (setMode s m .safe).oput m o1A_SAFE_CAUSE (cause : Nat)
  s.modOut m (fun o => { o with safe := Gate.fading true s.now })

/-- An ACTIVE realm stops driving and enters STANDBY, or one that leaves RUN or BRING-UP does. -/
def enterStandby (s : State) (m : RealmId) : State := setRole (setMode s m .standby) m 2

def enterActive (s : State) (m : RealmId) : State :=
  (setRole (setMode s m .active) m 1).modPair m (fun p => { p with activeAt := s.now, takeReq := none, release := none })

/-- The pair is left (R562). -/
def leavePair (s : State) (m : RealmId) : State := setRole (s.oput m o30_PAIR_MODE 0) m 0

/-- An accepted transition takes effect, with its fade. -/
def takeTrans (s : State) (m : RealmId) (t : Trans) : State :=
  let old := (s.realm m).mode
  if t.stop then fadeMode (beginTrans s m) m true
  else
    match t.target, old with
    | .safe, _ => takeSafe (beginTrans s m) m (((s.realm m).safeDue).getD 1)
    | .maintenance, .safe =>
      let s := (setRole (setMode s m .maintenance) m 0).oput m o1A_SAFE_CAUSE 0
      endTrans ((modeGate s m Gate.shut).modOut m (fun o => { o with safe := Gate.open })) m
    | .maintenance, _ => fadeMode (setMode (beginTrans s m) m .maintenance) m true
    | .bringUp, _ =>
      let s := sweepAnew (holdNetBanks (setMode s m .bringUp) m) m
      let s := s.modRealm m (fun r => { r with bringUpTb := s.tbNs m })
      endTrans (s.resetMaster m 4) m
    | x, .safe =>
      let s := (setMode (beginTrans s m) m x).oput m o1A_SAFE_CAUSE 0
      let s := if x = .standby then setRole s m 2 else s
      s.modOut m (fun o => { o with safe := Gate.fading false s.now })
    | .run, .active => endTrans (leavePair (setMode s m .run) m) m
    | .run, .standby => modeGate (leavePair (setMode (beginTrans s m) m .run) m) m (Gate.fading false s.now)
    | .run, _ => fadeMode (setMode (beginTrans s m) m .run) m false
    | .active, .run => endTrans (enterActive s m) m
    | .active, _ => fadeMode (enterActive (beginTrans s m) m) m false
    | .standby, .run => fadeMode (enterStandby (beginTrans s m) m) m true
    | .standby, _ => endTrans (modeGate (enterStandby s m) m Gate.open) m
    | _, _ => endTrans s m

/-- A release that is due: the realm stops driving and enters STANDBY (17 R578, R579). -/
def releaseNow (s : State) (m : RealmId) : State :=
  let s := s.modPair m (fun p => { p with release := none })
  if (s.realm m).mode = .active then enterStandby s m else s

def releaseDue (s : State) (m : RealmId) : State :=
  match (s.pair m).release with
  | some f => if f ≤ s.frameNo m then releaseNow s m else s
  | none => s

/-- An accepted transition takes effect at the frame boundary; one that is not a stop waits for the end of TAKEOVER
(08 R294). -/
def execRealmModeChange (e : Ev) (s : State) : Result :=
  let s := s.at e.t
  match (s.realm e.m).trans with
  | some t =>
    let waits := t.begun || (!t.stop && (s.realm e.m).mode == .takeover)
    .next (publishReady (if waits then s else takeTrans s e.m t) e.m)
  | none => .next s

/-! ## The end of fades (08 R291, R295; 09 R317; 16 R549) -/

def settleOut (o : OutSt) (now : Time) : OutSt :=
  let g := gateSettle now
  { o with pin := g o.pin, pll := g o.pll, mode := g o.mode, safe := g o.safe,
           tiles := (o.tiles.map (fun x => (x.1, g x.2))).filter (fun x => decide (x.2 ≠ Gate.open)),
           chans := (o.chans.map (fun x => (x.1, { x.2 with muted := g x.2.muted }))).filter (fun x => decide (x.2 ≠ Chan.reset)) }

/-- A port fade that has reached its last sample. -/
def settlePort (x : Port) : Port :=
  { x with inFade := if x.inFade = some (true, 32) then none else x.inFade,
           outFade := if x.outFade = some (true, 32) then none else x.outFade }

/-- Every fade that has reached its last sample ends, and a transition with its fade; a stop then disables ports and
streams. -/
def execFadeEnd (e : Ev) (s : State) : Result :=
  let s := s.at e.t
  let m := e.m
  let s := s.modOut m (fun o => settleOut o s.now)
  let s := forN 16 (fun p s => s.modPort m p settlePort) s
  match (s.realm m).trans with
  | some t =>
    if t.begun = false ∨ s.now < t.since + fadePs then .next s
    else if t.stop then
      let s := forN 16 (fun p s => if pobj s m o20_ENABLE p = 1 then portEnableDo s m p 0 else s) s
      .next (forN 64 (fun k s => streamEnableDo (streamEnableDo s m false k 0) m true k 0) s)
    else
      let s := if t.target = .standby ∧ (s.realm m).mode = .standby then s.modOut m (fun o => { o with mode := Gate.open }) else s
      .next (endTrans s m)
  | none => .next s

end Sys2Proof.Machine
end

