-- ==== Sys2Proof/Machine/Power.lean ====
section
/-!
DEFINITION. The always-on island: power sequences, device modes, wakes (16 R532 to R545; 15 R528 to R531), fuses (13 R465,
R466) and the test port (01 R29; 18 R590).
MARKED CHOICES of this file (DESIGN CHOICE, DEDUCED or PRESUMED): log entries 15, 33 and 46 to 48.
-/
namespace Sys2Proof.Machine

def State.modPower (s : State) (f : Power → Power) : State := s.modHub (fun h => { h with power := f h.power })

/-- A change of DEV_MODE is host source MODE (15 Table 15-8). -/
def setDevMode (s : State) (x : DMode) : State :=
  if s.hub.mode = x then s else (s.modHub (fun h => { h with mode := x })).hirq 25

/-- The output that enables a rail: VIO, VPLL, VRET, VSRAM, VCORE, VSD, VSDH (Table 16-1). -/
def railOutput (r : Nat) : Nat := [0, 0, 1, 2, 2, 3, 3].getD r 4

def railsOf (out : Nat) : List Nat := (List.range 7).filter (fun r => railOutput r == out)

/-- Every rail of the outputs below `n` is good. -/
def railsGood (p : Power) (n : Nat) : Bool := ((List.range 7).filter (fun r => decide (railOutput r < n))).all p.good.contains

/-! ## Wakes (15 R528 to R531) -/

def wakeEnabled (s : State) (src : Nat) : Bool := (s.hget o03_WAKE_ENABLE).toNat / 2 ^ src % 2 == 1
def setWakeCause (s : State) (v : Nat) : State := s.hput o03_WAKE_CAUSE (v : Nat)
def orBit (v b : Nat) : Nat := if v / 2 ^ b % 2 = 1 then v else v + 2 ^ b

/-- The power-up sequence starts: from DEEP STANDBY PWR_EN0 rises at once, from QUIET the next output rises by
POWER_UP_STEP (R537, R544). -/
def startUp (s : State) : State :=
  s.modPower (fun p => { p with seq := 1, en := if p.en = 0 then 1 else p.en, stepAt := s.now, timer := none, faulted := false,
                                fell := none, wakes := 0 })

/-- A wake starts with every source that has qualified. -/
def wake (s : State) (causes : Nat) : State := startUp (setWakeCause s causes)

/-- An enabled source qualifies. -/
def qualify (s : State) (src : Nat) : State :=
  let h := s.hub
  if h.mode = .off ∨ wakeEnabled s src = false then s
  else if h.power.seq = 2 ∨ h.power.request.isSome then s.modPower (fun p => { p with wakes := orBit p.wakes src })
  else if h.mode = .hub then (setWakeCause s (orBit (s.hget o03_WAKE_CAUSE).toNat src)).hirq 24
  else if h.power.seq = 1 then setWakeCause s (orBit (s.hget o03_WAKE_CAUSE).toNat src)
  else wake s (orBit h.power.wakes src)

/-- HOST_WAKE or one of GPIO_W0 to GPIO_W3 has been sampled at its active level three times. -/
def execWakeQualified (t : Time) (src : Nat) (s : State) : Result :=
  let s := s.at t
  .next (if src < 5 then qualify s src else s)

/-- The AON timer: its start and the earliest instant at which it can expire (R530). -/
def armTimer (s : State) : State :=
  let n := (s.hget o03_AON_TIMER).toNat
  let cal := allRealms.any (fun m => (s.realm m).xo)
  s.modPower (fun p =>
    { p with timer := if n = 0 then none else some (s.now, if cal then ms (950 * n) else ms (890 * n)) })

def execAonTimerExpiry (t : Time) (s : State) : Result :=
  let s := s.at t
  match s.hub.power.timer with
  | some (t0, d) =>
    if t0 + d ≤ s.now then .next (qualify (s.modPower (fun p => { p with timer := none })) 5) else .next s
  | none => .next s

/-- 100 ms after PWR_EN0 fell in a power-down that a supply fault started. -/
def execVcoreGoodWake (t : Time) (s : State) : Result :=
  let s := s.at t
  let p := s.hub.power
  match p.fell with
  | some f =>
    if p.faulted ∧ f + ms 100 ≤ s.now then
      .next (qualify (s.modPower (fun p => { p with faulted := false, fell := none })) 6)
    else .next s
  | none => .next s

/-! ## Entry to DEEP STANDBY, QUIET and HUB -/

/-- Arrays that lose their contents in QUIET: all but program memories, coefficient regions, Keeper ROM, the object store and
every deep bank that is ON or RETAIN (07 R269). -/
def quietMemory (s : State) (m : RealmId) : State :=
  let s := zeroKeeper (zeroLost s m) m
  forN 64 (fun b s => if ((s.realm m).deepPow b).st = 2 then dropDeep s m b else s) s

/-- The power-down sequence has ended (R539, R542). A wake that qualified during it starts at once (R531). -/
def endDown (s : State) : State :=
  let p := s.hub.power
  let quiet := p.leave = 2
  let was := s.hub.mode
  let s := s.modPower (fun p => { p with seq := 0 })
  let s := setDevMode s (if quiet then .quiet else .deepStandby)
  let s := if quiet then allRealms.foldl quietMemory s else s
  let s := if was = s.hub.mode then s else armTimer s
  if s.hub.power.wakes = 0 then s else wake s s.hub.power.wakes

/-- One more output falls; its rails are good no longer. -/
def lowerOne (s : State) : State :=
  let s := s.modPower (fun p =>
    { p with en := p.en - 1, stepAt := s.now, good := p.good.filter (fun r => decide (railOutput r < p.en - 1)),
             fell := if p.en = 1 ∧ p.faulted then some s.now else p.fell })
  if s.hub.power.en ≤ s.hub.power.leave then endDown s else s

/-- The power-down sequence starts: the port ignores every command, the highest output falls (R539, R543), and a REALM_START that
waits is dropped (01 R34). -/
def startDown (s : State) (leave : Nat) : State :=
  let s := allRealms.foldl (fun s m => s.modMemory m (fun x => { x with startWaits := false })) s
  let s := s.modHub (fun h => { h with ready := false })
  lowerOne (s.modPower (fun p => { p with seq := 2, leave := leave, request := none }))

/-- The power-up sequence is complete: from DEEP STANDBY every RAM class is initialised and every realm reset; from QUIET the
Host Hub is reset and every realm stays as it was parked (R540, R544, R557). The regulator starts at 0.80 V (R534). -/
def upDone (s : State) : State :=
  let quiet := s.hub.mode == .quiet
  let s := s.modHub (fun h => { h with vout := 800, voutAt := s.now })
  let s := setDevMode (hubReset (s.modPower (fun p => { p with seq := 0 }))) .hub
  if quiet then allRealms.foldl scrubKeptFirst s
  else allRealms.foldl (fun s m => zeroStore (zeroKeeper (zeroLost (realmReset s m) m) m) m) s

def execRailGood (t : Time) (rail : Nat) (s : State) : Result :=
  let s := s.at t
  let p := s.hub.power
  if p.en ≤ railOutput rail ∨ p.good.contains rail then .next s
  else
    let s := s.modPower (fun p => { p with good := rail :: p.good })
    let p := s.hub.power
    if p.seq = 1 ∧ railsGood p p.en then
      let s := s.modPower (fun p => { p with stepAt := s.now })
      .next (if p.en = 4 then upDone s else s)
    else .next s

/-- 100 µs after every rail of the previous output is good, the next output rises. -/
def execPowerUpStep (t : Time) (s : State) : Result :=
  let s := s.at t
  let p := s.hub.power
  if p.seq = 1 ∧ 0 < p.en ∧ p.en < 4 ∧ railsGood p p.en ∧ p.stepAt + us 100 ≤ s.now then
    .next (s.modPower (fun p => { p with en := p.en + 1, stepAt := s.now }))
  else .next s

/-- A rail is not good 10 ms after its output rose: the device goes down and stays in DEEP STANDBY (R538). -/
def execRailTimeout (t : Time) (rail : Nat) (s : State) : Result :=
  let s := s.at t
  let p := s.hub.power
  if p.seq = 1 ∧ railOutput rail + 1 = p.en ∧ p.good.contains rail = false ∧ p.stepAt + ms 10 ≤ s.now then
    .next (startDown s 0)
  else .next s

def execPowerDownStep (t : Time) (s : State) : Result :=
  let s := s.at t
  let p := s.hub.power
  if p.seq = 2 ∧ p.leave < p.en ∧ p.stepAt + ms 1 ≤ s.now then .next (lowerOne s) else .next s

/-- 1 ms after the reply to an accepted DEV_MODE_REQUEST became READY. A realm that has left DORMANT meanwhile keeps the device
in HUB (01 R35). -/
def execPowerDownStart (t : Time) (s : State) : Result :=
  let s := s.at t
  let p := s.hub.power
  match p.request with
  | some (leave, at0) =>
    if at0 + ms 1 ≤ s.now ∧ p.seq = 0 then
      if allRealms.any (contributes s) then .next (s.modPower (fun p => { p with request := none }))
      else .next (startDown s leave)
    else .next s
  | none => .next s

/-- A rail stays more than 5% below its range for 10 µs (R535, R545). -/
def execSupplyFault (t : Time) (rail : Nat) (s : State) : Result :=
  let s := s.at t
  if s.hub.mode = .hub ∧ s.hub.power.seq = 0 ∧ s.hub.power.good.contains rail then
    let s := allRealms.foldl realmReset s
    .next (startDown (s.modPower (fun p => { p with faulted := true, fell := none, good := p.good.filter (· != rail) })) 0)
  else .next s

/-- VAON enters its range: the always-on island and every scope below it are reset, and the power-up sequence starts (R541,
R557). -/
def execPowerOnReset (t : PowerOn) (s : State) : Result :=
  let s := s.at t.t
  let s := s.modHub (fun h =>
    { Hub.reset with fuse := { h.fuse with burn := none }, testEn := h.testEn, power := { Power.reset with stepAt := s.now } })
  .next (allRealms.foldl (fun s m =>
    let s := s.modRealm m (fun r => { r with xo := t.xo.getLsbD m.val, sdref := t.sdref.getLsbD m.val })
    zeroStore (zeroKeeper (zeroLost (realmReset s m) m) m) m) s)

/-- VAON is removed: the device is OFF at once (R542). -/
def execVaonRemoved (t : Time) (s : State) : Result :=
  let s := s.at t
  let s := allRealms.foldl realmReset s
  .next (s.modHub (fun h =>
    { Hub.reset with mode := .off, fuse := { h.fuse with burn := none }, testEn := h.testEn,
                     power := { Power.reset with vaon := false, en := 0, seq := 0, stepAt := s.now } }))

/-! ## DEV_MODE_REQUEST (R542, R543) -/

def devModeErr (s : State) (v : Nat) : Option Nat :=
  if v ≤ 16 ∨ 20 ≤ v then some 0x16
  else if v = 19 then none
  else if allRealms.any (contributes s) then some 0x17
  else none

def devModeDo (s : State) (v : Nat) : State :=
  if v = 17 then s.modPower (fun p => { p with request := some (0, s.now) })
  else if v = 18 then s.modPower (fun p => { p with request := some (2, s.now) })
  else s

/-! ## Fuses and identity (13 R465, R466) -/

def keyBurnErr (s : State) : Option Nat :=
  if s.hub.fuse.burned ∨ s.hub.fuse.burn.isSome then some 0x18
  else if allRealms.any (contributes s) then some 0x17
  else none

def keyBurnDo (s : State) (hash : List Byte) : State :=
  s.modHub (fun h => { h with fuse := { h.fuse with burn := some (leBytes hash, s.now) } })

/-- The burn ends; `readBack` is the hash as the fuses then read. -/
def execFuseBurnComplete (t : Time) (readBack : List Byte) (s : State) : Result :=
  let s := s.at t
  .next (if s.hub.fuse.burn.isSome then
      s.modHub (fun h => { h with fuse := ⟨leBytes (readBack.take 32), true, none⟩ })
    else s)

/-- The signature under the device identity key of the challenge and DEVICE_SERIAL. -/
def identityProof (challenge : List Byte) : List Byte :=
  let d := sha256 (challenge ++ toLe 16 Config.deviceSerial)
  toBe 64 (Config.deviceSignature (beBytes d))

/-! ## The test access port (01 R29; 18 R590) -/

/-- The instruction that the TAP decodes: 0 EXTEST, 1 IDCODE, 2 BYPASS, 3 and 4 the pin-control instructions of IEEE 1149.6. -/
def tapDecoded (s : State) : Nat :=
  if allRealms.any (contributes s) ∧ (s.hub.tap = 0 ∨ 3 ≤ s.hub.tap) then 2 else s.hub.tap

def tapIdcode : Nat := 0x20780A2F

def execJtagInstruction (t : Time) (code : Nat) (s : State) : Result :=
  let s := s.at t
  .next (s.modHub (fun h => { h with tap := if code < 5 then code else 2 }))

end Sys2Proof.Machine
end

