-- ==== Sys2Proof/Machine/Codec.lean ====
section
/-!
DEFINITION. Biluno messages as bytes (12 R416 to R418, R429): operations, replies, header, CRC and tag.
-/
namespace Sys2Proof.Machine

/-! ## Operations (Table 12-4) -/

def opBytes (o : Op) : List Byte :=
  [BitVec.ofNat 8 o.code, BitVec.ofNat 8 o.flags] ++ toLe 2 o.body.length ++ toLe 4 o.oid ++ o.body

def noFrame : Nat := 0xFFFFFFFFFFFFFFFF

def ackOp (oid frame : Nat) : Op := ⟨0x80, 0, oid, toLe 8 frame⟩
def resultOp (oid : Nat) (body : List Byte) : Op := ⟨0x81, 0, oid, body⟩
def busyOp (oid us : Nat) : Op := ⟨0x82, 0, oid, toLe 4 us⟩
def errorOp (oid code detail : Nat) : Op := ⟨0x83, 0, oid, toLe 2 code ++ toLe 2 detail⟩
def notifyOp (oid : Nat) (body : List Byte) : Op := ⟨0x84, 0, oid, body⟩

/-- The operations packed from an offset, and the offset of the first failing byte (Table 12-5, order 8). -/
def parseOps (d : List Byte) (fin : Nat) : Nat → Nat → List Op × Option Nat
  | 0, p => ([], if p = fin then none else some p)
  | n + 1, p =>
    if fin < p + 8 then ([], some p)
    else
      let len := le d (p + 2) 2
      if fin < p + 8 + len then ([], some (p + 2))
      else
        let (r, e) := parseOps d fin n (p + 8 + len)
        (⟨le d p 1, le d (p + 1) 1, le d (p + 4) 4, slice d (p + 8) len⟩ :: r, e)

/-! ## Messages (Table 12-3) -/

def magic : List Byte := [0x42, 0x4C]
def hostSession : Nat := 0xFFFFFFFF

def flagReply : Nat := 1
def flagTagged : Nat := 2
def flagNotify : Nat := 4

/-- A message with its CRC, and its tag where a key is given (R429). -/
def message (flags sess seq : Nat) (ops : List Op) (key : Option (List Byte)) : List Byte :=
  let body := ops.flatMap opBytes
  let t := if key.isSome then 16 else 0
  let f := flags + (if key.isSome then flagTagged else 0)
  let d := magic ++ [1, BitVec.ofNat 8 f] ++ toLe 4 sess ++ toLe 4 seq ++ toLe 2 ops.length ++ toLe 2 (20 + body.length + t) ++ body
  let d := d ++ toLe 4 (crc32c d)
  match key with
  | some k => d ++ (hmac256 k d).take 16
  | none => d

structure Head where
  version : Nat
  flags   : Nat
  sess    : Nat
  seq     : Nat
  count   : Nat
  len     : Nat
  deriving DecidableEq, Repr

def header (d : List Byte) : Head := ⟨le d 2 1, le d 3 1, le d 4 4, le d 8 4, le d 12 2, le d 14 2⟩

def Head.reply (h : Head) : Bool := h.flags % 2 == 1
def Head.tagged (h : Head) : Bool := h.flags / 2 % 2 == 1
def Head.notify (h : Head) : Bool := h.flags / 4 % 2 == 1
def Head.tag (h : Head) : Nat := if h.tagged then 16 else 0

/-- The CRC of a message holds. -/
def crcOk (d : List Byte) : Bool :=
  let n := d.length - 4 - (header d).tag
  le d n 4 == crc32c (d.take n)

/-- The tag of a message verifies under a key. -/
def tagOk (d key : List Byte) : Bool :=
  let n := d.length - 16
  (hmac256 key (d.take n)).take 16 == d.drop n

/-! ## Keys -/

/-- KEY and KEY_ROLE of a slot (Table 12-11). -/
def slotKey (s : State) (m : RealmId) (k : Nat) : List Byte := toLe 32 (s.onat m (o28_KEY + 16 * k))
def slotRole (s : State) (m : RealmId) (k : Nat) : Nat := s.onat m (o28_KEY_ROLE + 16 * k)

/-- The session key (R429). -/
def sessionKey (key client server : List Byte) (id : Nat) : List Byte :=
  hmac256 key ([0x42, 0x4C, 0x53, 0x31] ++ client ++ server ++ toLe 4 id)

/-- The object ID of a realm's object (00 R10). -/
def oidOf (m : RealmId) (key : Nat) : Nat := m.val * 268435456 + key
def oidScope (oid : Nat) : Nat := oid / 268435456 % 16
def oidKey (oid : Nat) : Nat := oid % 268435456

end Sys2Proof.Machine
end

