-- ==== Sys2Proof/Machine/Pair.lean ====
section
/-!
DEFINITION. Paired realms (17): windows, digests, beacons, the health word, takeover, release and the Keeper referee.
MARKED CHOICES of this file (DESIGN CHOICE, DEDUCED or PRESUMED): log entries 2 and 51 to 53.
-/
namespace Sys2Proof.Machine

/-! ## Windows and digests (R570, R572, R573) -/

/-- D, the frames of a window. -/
def windowLen (s : State) (m : RealmId) : Nat := s.rate m / 1000

def paired (s : State) (m : RealmId) : Bool := s.onat m o30_PAIR_MODE == 1

/-- A realm that sends beacons. -/
def sendsBeacons (s : State) (m : RealmId) : Bool :=
  paired s m && (pairedModes (s.realm m).mode || (s.realm m).mode == .safe)

/-- The comparison of one window: its own digest and the partner's (R573; R566). -/
def compareWindow (s : State) (m : RealmId) (own : Nat × Nat × Nat) (b : Beacon) : State :=
  if own.2.1 ≠ b.epoch then s
  else if own.2.2 = b.digest then
    s.modPair m (fun p => { p with digest := false, matched := p.matched + 1,
                                   stepLost := if 1000 ≤ p.matched + 1 then false else p.stepLost })
  else
    let s := s.modPair m (fun p => { p with digest := true, matched := 0 })
    (s.bump m o30_DIGEST_MISMATCHES 1).raise m 0x3002 o30_DIGEST_MISMATCHES

/-- Every window for which both digests are present is compared, once. -/
def compareAll (s : State) (m : RealmId) : State :=
  let p := s.pair m
  let ready := p.theirs.filter (fun b => p.own.any (fun o => o.1 == b.frame))
  let s := s.modPair m (fun p => { p with theirs := p.theirs.filter (fun b => !p.own.any (fun o => o.1 == b.frame)) })
  ready.reverse.foldl (fun s b =>
    match p.own.find? (fun o => o.1 == b.frame) with
    | some o => compareWindow s m o b
    | none => s) s

/-- The output words of frame n enter the digest of its window; with the last frame the digest is complete. -/
def digestWords (s : State) (m : RealmId) (words : List (BitVec 32)) : State :=
  let d := windowLen s m
  let n := s.frameNo m
  let start := if n % d = 0 then 0xFFFFFFFF else (s.pair m).crc
  let crc := crcAcc start (words.flatMap (fun w => toLe 4 w.toNat))
  let s := s.modPair m (fun p => { p with crc := crc })
  if n % d + 1 = d then
    let digest := if (s.frame m).running then crc ^^^ 0xFFFFFFFF else 0
    let s := s.oput m o30_DIGEST_LAST (digest : Nat)
    let s := s.modPair m (fun p => { p with own := (n + 1 - d, s.onat m o14_RUNNING_EPOCH, digest) :: p.own.take 127 })
    compareAll s m
  else s

/-! ## The health word (Table 17-4) -/

def memUeRecent (r : Realm) (now : Time) : Bool :=
  r.gates.any (fun g => g.1 / 4294967296 == 0x1801 && decide (now < g.2 - 1 + sec 1))

def healthWord (s : State) (m : RealmId) : Nat :=
  let r := s.realm m
  bitIf 0 (s.onat m o22_PLL_STATE != 4) + bitIf 1 (s.onat m o22_REF_STATE != 2)
    + bitIf 2 (decide (s.onat m o1A_HEALTH_MUTED ≤ s.onat m o1A_TALLY_MUTED_CHANNELS)) + bitIf 3 (r.mode == .safe)
    + bitIf 4 ((List.range 16).any (fun k => s.onat m (o12_OVERRUN_MUTED + 16 * k) == 1)) + bitIf 5 (statusBit s m 0)
    + bitIf 6 (memUeRecent r s.now)
    + bitIf 7 ((List.range 16).any (fun p => pobj s m o20_ENABLE p == 1 && (portState s m p == 5 || portState s m p == 6)))
    + bitIf 8 (streams.any (fun k => rxOn s m k && s.onat m (o26_STATE + 16 * k) == 3))
    + bitIf 9 (r.frame.stA != 4 && r.frame.stB != 4) + bitIf 10 r.pair.stepLost + bitIf 11 r.pair.digest

/-- Bits of a word within a mask. -/
def bitsIn (v mask : Nat) : Nat := v &&& mask
def faultMask : Nat := 0x03FD
def stepMask : Nat := 0x0C00

/-! ## The tick that ends a window (R574, R575) -/

/-- Windows whose beacon is overdue are counted. -/
def countMissed (s : State) (m : RealmId) : State :=
  let late := fun (d : Nat × Time) => decide (d.2 + beaconTimeout s m < s.now)
  let n := ((s.pair m).due.filter late).length
  let s := s.modPair m (fun p => { p with due := p.due.filter (fun d => !late d) })
  if n = 0 then s else s.bump m o30_BEACONS_MISSED n

def windowTick (s : State) (m : RealmId) : State :=
  if paired s m = false then s
  else
    let n := s.frameNo m
    let d := windowLen s m
    let s := if 0 < n ∧ n % d = 0 then
        let here := (match (s.pair m).heard with
          | some (_, b) => decide (n - d ≤ b.frame)
          | none => false : Bool)
        let s := if here then s else s.modPair m (fun p => { p with due := p.due ++ [(n - d, s.now)] })
        if pairedModes (s.realm m).mode ∧ bitsIn (healthWord s m) faultMask = 0 then
          s.modPair m (fun p => { p with pulse := some s.now })
        else s
      else s
    countMissed s m

/-- M#_PAIR_HB is high for 10 µs from the tick. -/
def hbHigh (s : State) (m : RealmId) : Bool :=
  match (s.pair m).pulse with
  | some t => decide (s.now < t + us 10)
  | none => false

/-! ## PAIR_MODE (R560) -/

def pairModeErr (s : State) (m : RealmId) : Option Nat :=
  match (s.realm m).mode with
  | .bringUp => none
  | .run => none
  | .maintenance => none
  | _ => some 0x17

def pairModeDo (s : State) (m : RealmId) (v : Nat) : State :=
  (s.oput m o30_PAIR_MODE (v : Nat)).modPair m (fun p => { p with since := s.now, lost := false, due := [], heard := none })

/-! ## Beacons as bytes (R571, Table 17-3) -/

def beaconBody (b : Beacon) : List Byte :=
  toLe 1 b.role ++ toLe 1 b.mode ++ toLe 2 b.health ++ toLe 8 b.frame ++ toLe 2 b.window ++ toLe 2 b.epoch ++ toLe 4 b.digest
    ++ toLe 8 b.take ++ toLe 4 b.forwards ++ toLe 16 b.image

def beaconOf (d : List Byte) : Beacon :=
  ⟨le d 0 1, le d 1 1, le d 2 2, le d 4 8, le d 12 2, le d 14 2, le d 16 4, le d 20 8, le d 28 4, le d 32 16⟩

def pairKeyUsed (s : State) (m : RealmId) : Bool := slotRole s m 7 != 0

/-- The realm's beacon of a window. -/
def ownBeacon (s : State) (m : RealmId) (role first digest take : Nat) : Beacon :=
  { role := role, mode := modeCode (s.realm m).mode, health := healthWord s m, frame := first, window := windowLen s m,
    epoch := s.onat m o14_RUNNING_EPOCH, digest := digest, take := take, forwards := (s.pair m).forwards,
    image := s.onat m o14_RUNNING_IMAGE_ID }

/-- A beacon counts, and goes to BEACON_GROUP on every port whose link is up. -/
def sendBeacon (s : State) (m : RealmId) (b : Beacon) : State :=
  let s := s.modPair m (fun p => { p with seq := p.seq + 1 })
  let key := if pairKeyUsed s m then some (slotKey s m 7) else none
  let d := message (flagReply + flagNotify) 0 ((s.pair m).seq % 4294967296) [notifyOp (oidOf m o30_HEALTH) (beaconBody b)] key
  let group := s.onat m o30_BEACON_GROUP
  let bp := s.onat m o28_BILUNO_PORT
  [0, 1].foldl (fun s p =>
    if group ≠ 0 ∧ npobj s m o24_LINK_STATE p = 1 then sendMore s m (udpOut s m p group bp bp 64 0 d) else s)
    (clearSent (clearSent s m 0) m 1)

/-- The beacon of the window that ended last. -/
def execBeaconSend (e : Ev) (s : State) : Result :=
  let s := s.at e.t
  let m := e.m
  let w := s.frameNo m / windowLen s m
  if sendsBeacons s m = false ∨ w = 0 ∨ w ≤ (s.pair m).sentWin then .next s
  else
    let first := (w - 1) * windowLen s m
    let digest := match (s.pair m).own.find? (fun o => o.1 == first) with
      | some o => o.2.2
      | none => 0
    let s := s.modPair m (fun p => { p with sentWin := w })
    .next (sendBeacon s m (ownBeacon s m (s.onat m o30_PAIR_ROLE) first digest (s.pair m).takeFrame))

/-! ## The referee (R582, Table 17-5) -/

/-- A TAKE for the standby. -/
def sendTake (s : State) (m : RealmId) (n : Nat) : State :=
  let s := s.modPair m (fun p => { p with refTake := some (n, s.now) })
  s.modBil m (fun b => { b with sent := b.sent ++ [(s.onat m o30_REFEREE_STANDBY, opBytes ⟨6, 0, o30_TAKE, []⟩)] })

def takeDecision (s : State) (m : RealmId) : Bool :=
  let p := s.pair m
  match p.refS with
  | none => false
  | some (ts, b) =>
    let here := decide (s.now ≤ ts + beaconTimeout s m)
    let left := match p.refA with
      | (_, a) :: _ => a.role == 0
      | [] => false
    let silent := match p.refA with
      | (ta, _) :: _ => decide (ta + beaconTimeout s m < s.now)
      | [] => decide (p.since + beaconTimeout s m < s.now)
    let worse := match p.refA with
      | (_, a) :: (_, a') :: _ =>
        bitsIn (bitsIn (bitsIn a.health a'.health) faultMask) (0xFFFF - b.health) != 0 && bitsIn b.health stepMask == 0
          && bitsIn a.health 0x400 == 0
      | _ => false
    here && !left && ((silent && bitsIn b.health faultMask == 0) || (!silent && worse))

/-- The referee decides at each beacon that it accepts. -/
def refereeDecides (s : State) (m : RealmId) : State :=
  let p := s.pair m
  match p.refTake, p.refS with
  | some _, some (_, b) =>
    if b.role = 1 then
      (s.oput m o30_REFEREE_ENABLE 0).modPair m (fun p => { p with refTake := none, refA := [], refS := none })
    else s
  | some _, none => s
  | none, _ => if takeDecision s m then sendTake s m 0 else s

/-- TAKE is repeated every 1 ms, up to 5 times. -/
def execRefereeTakeRepeat (e : Ev) (s : State) : Result :=
  let s := s.at e.t
  let m := e.m
  match (s.pair m).refTake with
  | some (n, t) =>
    if s.onat m o30_REFEREE_ENABLE = 1 ∧ t + ms 1 ≤ s.now then
      .next (if n < 5 then sendTake s m (n + 1) else s.modPair m (fun p => { p with refTake := none }))
    else .next s
  | none => .next s

/-! ## Reception (R571, R573, R574, R578, R579) -/

/-- FLAGS, SESSION, OPCOUNT and LEN of a beacon, its CRC and its tag. -/
def beaconValid (s : State) (m : RealmId) (d : List Byte) : Bool :=
  let h := header d
  let used := pairKeyUsed s m
  d.take 2 == magic && h.version == 1 && h.flags == (if used then 7 else 5) && h.sess == 0 && h.count == 1
    && d.length == (if used then 92 else 76) && h.len == d.length && le d 16 1 == 0x84 && le d 18 2 == 48
    && oidKey (le d 20 4) == o30_HEALTH && crcOk d && (!used || tagOk d (slotKey s m 7))

def watched (s : State) (m : RealmId) (src : Nat) : Bool :=
  src != 0 && ((paired s m && src == s.onat m o30_PARTNER_ADDRESS)
    || (s.onat m o30_REFEREE_ENABLE == 1 && (src == s.onat m o30_REFEREE_ACTIVE || src == s.onat m o30_REFEREE_STANDBY)))

/-- An ACTIVE realm gives way: at the tick of the take frame, or at once when it has passed (R578); to a partner that became
active later, or has the lower MAC address, at its next tick (R579). `mac` is the partner's NETA MAC address. -/
def giveWay (s : State) (m : RealmId) (b : Beacon) (mac : Nat) : State :=
  if (s.realm m).mode ≠ .active then s
  else if b.role = 3 then
    (if b.take ≤ s.frameNo m then releaseNow s m else s.modPair m (fun p => { p with release := some b.take }))
  else
    let own := (s.pair m).takeFrame
    if b.role = 1 ∧ (own < b.take ∨ (b.take = own ∧ mac < macAddr s m 0)) then
      s.modPair m (fun p => { p with release := some (s.frameNo m + 1) })
    else s

/-- The partner's beacon. -/
def partnerBeacon (s : State) (m : RealmId) (b : Beacon) (mac : Nat) : State :=
  let s := s.modPair m (fun p =>
    { p with heard := some (s.now, b), lost := false, since := s.now, due := p.due.filter (fun d => d.1 != b.frame),
             theirs := if b.role = 3 then p.theirs else b :: p.theirs.take 127 })
  let s := (s.oput m o30_PARTNER_HEALTH (b.health : Nat)).oput m o30_PARTNER_FRAME (b.frame : Nat)
  giveWay (compareAll s m) m b mac

/-- The MAC address that sent from an address: the ARP cache has it, or the pair is on one device. -/
def senderMac (s : State) (m : RealmId) (src : Nat) : Nat :=
  match arpMac s m 0 src with
  | some a => a
  | none =>
    match allRealms.find? (fun k => k != m && ipAddr s k 0 == src) with
    | some k => macAddr s k 0
    | none => 0xFFFFFFFFFFFF

def takeBeacon (s : State) (m : RealmId) (src : Nat) (b : Beacon) : State :=
  let p := s.pair m
  if b.frame < tget 0 p.last src then s
  else
    let s := s.modPair m (fun p => { p with last := tput 0 p.last src (b.frame + 1) })
    let s := if paired s m ∧ src = s.onat m o30_PARTNER_ADDRESS then partnerBeacon s m b (senderMac s m src) else s
    if s.onat m o30_REFEREE_ENABLE = 1 then
      let s := if src = s.onat m o30_REFEREE_ACTIVE then
          s.modPair m (fun p => { p with refA := (s.now, b) :: p.refA.take 1 }) else s
      let s := if src = s.onat m o30_REFEREE_STANDBY then s.modPair m (fun p => { p with refS := some (s.now, b) }) else s
      if src = s.onat m o30_REFEREE_ACTIVE ∨ src = s.onat m o30_REFEREE_STANDBY then refereeDecides s m else s
    else s

/-- A message that is a beacon, from the IPv4 address `src`; any other that names itself one is ignored (R571). -/
def beaconMessage (s : State) (m : RealmId) (src : Nat) (d : List Byte) : State :=
  if watched s m src ∧ beaconValid s m d then takeBeacon s m src (beaconOf (slice d 24 48)) else s

/-- A beacon arrives; the Keeper takes it from the queue of the port that holds it. -/
def execBeaconReceived (e : Ev) (src : Nat) (bytes : List Byte) (s : State) : Result :=
  let s := s.at e.t
  let m := e.m
  if (s.realm m).bus.keeper then
    let s := if holdsUdp s m 0 bytes then takeUdp s m 0 bytes else takeUdp s m 1 bytes
    .next (beaconMessage (s.bump m o28_RX_MESSAGES 1) m src bytes)
  else .next s

/-- No partner beacon for BEACON_TIMEOUT. -/
def execPartnerLost (e : Ev) (s : State) : Result :=
  let s := s.at e.t
  let m := e.m
  let p := s.pair m
  if paired s m ∧ p.lost = false ∧ p.since + beaconTimeout s m ≤ s.now then
    let s := (countMissed s m).modPair m (fun p => { p with lost := true })
    .next ((s.raise m 0x3001 o30_BEACONS_MISSED).irq m 6)
  else .next s

/-! ## Takeover (R576, R577, R581) -/

def imageReady (s : State) (m : RealmId) : Bool := (s.frame m).stA == 4 || (s.frame m).stB == 4

def takeErr (s : State) (m : RealmId) : Option Nat :=
  match (s.realm m).mode with
  | .standby => if imageReady s m then none else some 0x18
  | .active => none
  | _ => some 0x17

def takeDo (s : State) (m : RealmId) : State :=
  if (s.realm m).mode = .standby ∧ (s.pair m).takeReq.isNone then
    s.modPair m (fun p => { p with takeReq := some (s.frameNo m) })
  else s

def takeRefused (s : State) (m : RealmId) : State := s.raise m 0x3004 o30_PAIR_ROLE

/-- The other realm of a pair on this device, for which the Host Hub relays. -/
def devicePartner (s : State) (m : RealmId) : Option RealmId :=
  if s.hub.ready ∧ paired s m then
    allRealms.find? (fun k => k != m && paired s k && s.onat m o30_PARTNER_ADDRESS != 0
      && s.onat m o30_PARTNER_ADDRESS == ipAddr s k 0 && s.onat k o30_PARTNER_ADDRESS == ipAddr s m 0)
  else none

/-- An edge at M#_PAIR_TAKE that is acted on. -/
def takeEdge (s : State) (m : RealmId) : State :=
  let s := s.irq m 5
  match (s.realm m).mode with
  | .standby => if (takeErr s m).isSome then takeRefused s m else takeDo s m
  | .active =>
    if (s.pair m).activeAt + ms 100 ≤ s.now then s.modPair m (fun p => { p with release := some (s.frameNo m + 2) }) else s
  | _ => s

/-- A high pulse at M#_PAIR_TAKE: 1 µs or longer is acted on, shorter than 200 ns is ignored, between the two the outcome is
free (log entry 2). -/
def execPairTakeEdge (e : Ev) (width : Nat) (s : State) : Result :=
  let s := s.at e.t
  let (d, s') := s.draw
  let mid := decide (ns 200 ≤ width) && decide (width < us 1)
  let s := if mid then s' else s
  if (us 1 ≤ width ∨ (mid ∧ d % 2 = 1)) ∧ (s.realm e.m).mode ≠ .dormant then
    let other := devicePartner s e.m
    let s := takeEdge s e.m
    .next (match other with
      | some k => takeEdge s k
      | none => s)
  else .next s

/-- The tick of the frame after an accepted TAKE: TAKEOVER, and the take notice. -/
def execTakeoverBegin (e : Ev) (s : State) : Result :=
  let s := s.at e.t
  let m := e.m
  match (s.pair m).takeReq with
  | some n =>
    if (s.realm m).mode = .standby ∧ n + 1 ≤ s.frameNo m then
      let s := setMode s m .takeover
      let d := windowLen s m
      let b := ownBeacon s m 3 (s.frameNo m / d * d) 0 (n + 2)
      let s := sendBeacon s m b
      .next (match devicePartner s m with
        | some k => takeBeacon s k (ipAddr s m 0) b
        | none => s)
    else .next s
  | none => .next s

/-- The take frame: ACTIVE, without a fade. A SAFE_ENTER accepted meanwhile takes effect (08 R294), unless the realm stops. -/
def execTakeoverDone (e : Ev) (s : State) : Result :=
  let s := s.at e.t
  let m := e.m
  match (s.pair m).takeReq with
  | some n =>
    if (s.realm m).mode = .takeover ∧ n + 2 ≤ s.frameNo m then
      let s := (enterActive s m).modPair m (fun p => { p with takeFrame := n + 2 })
      let s := s.modRealm m (fun r => { r with trans := r.trans.filter (·.stop), out := { r.out with mode := Gate.open } })
      let s := (s.bump m o30_TAKEOVERS 1).raise m 0x3003 o30_PAIR_ROLE
      .next (match (s.realm m).safeDue, (s.realm m).trans with
        | some c, none => takeSafe (beginTrans (startTrans s m .safe false) m) m c
        | _, _ => s)
    else .next s
  | none => .next s

end Sys2Proof.Machine
end

