-- ==== Sys2Proof/Machine/Tick.lean ====
section
/-!
DEFINITION. The realm's frame (02 R61 to R67; 03 R72 to R78, R86, R91, R94; 06 R203 to R205; 09 R307, R309, R311; 11 R395, R396;
12 R434, R435; 13 R453; 14 R493): frame tick, foreground start and deadline, staged records, realignment, and the watchdog.
MARKED CHOICES of this file (DESIGN CHOICE, DEDUCED or PRESUMED): log entries 16 to 21, 23 and 31.
-/
namespace Sys2Proof.Machine

/-! ## The frame number (R72, R73, R435) -/

/-- Sample periods since the PTP epoch at this instant, the pulse nearest to it. -/
def ptpFrame (s : State) (m : RealmId) : Nat := (s.tbNs m * s.rate m + 500000000) / 1000000000

/-- A frame number that is moved by `d`. -/
def moveN (d : Int) (n : Nat) : Nat := ((n : Int) + d).toNat

/-- The start frame of a record when the count goes from `old` to `new` instead of `old` + 1: a record in force moves with
the count, a record whose start the count has passed is adopted at once (06 R205), any other moves with its writes. -/
def moveStart (old new : Nat) (n : Nat) : Nat :=
  let d := (new : Int) - (old + 1 : Nat)
  if old < n ∧ n ≤ new then new else moveN d n

def moveRec (old new : Nat) (r : RampRec) : RampRec := { r with s := moveStart old new r.s }

def moveHeld (old new : Nat) (h : Held) : Held :=
  { h with release := moveStart old new h.release, cur := h.cur.map (moveRec old new), pend := h.pend.map (moveRec old new) }

def moveSel (old new : Nat) (h : SelHeld) : SelHeld :=
  ⟨{ h.cur with s := moveStart old new h.cur.s }, h.pend.map (fun r => { r with s := moveStart old new r.s })⟩

def moveTile (old new : Nat) (x : Tile) : Tile :=
  let d := (new : Int) - (old + 1 : Nat)
  { x with frame := moveN d x.frame, halted := x.halted.map (moveN d),
           slots := x.slots.map (fun h => (h.1, moveHeld old new h.2)),
           sels := x.sels.map (fun h => (h.1, moveSel old new h.2)), sets := x.sets.map (fun r => (r.1, moveStart old new r.2)) }

/-- A pending write: one whose staged record the count has passed takes effect at once, one with a record in tile memory
waits until that is rewritten. -/
def moveEffect (old new : Nat) (e : Effect) : Effect :=
  let d := (new : Int) - (old + 1 : Nat)
  if e.tiles = [] ∨ e.rw then { e with frame := moveN d e.frame }
  else if e.frame ≤ new then { e with frame := new }
  else { e with frame := moveN d e.frame, moved := true }

/-- The frame number is set to the PTP-derived value `new`. -/
def realign (s : State) (m : RealmId) (new : Nat) : State :=
  let old := s.frameNo m
  let d := (new : Int) - (old + 1 : Nat)
  let s := refuseSwap s m
  let s := s.modFrame m (fun f =>
    { f with number := new, swapFrame := f.swapFrame.map (fun x => (moveN d x.1, x.2)),
             cold := f.cold.map (fun c => { c with start := moveN d c.start }),
             hrUntil := f.hrUntil.map (fun x => (x.1, moveN d x.2)),
             hrStart := f.hrStart.map (fun x => (x.1, moveStart old new x.2)),
             hrMoved := (f.hrStart.filter (fun x => decide (old < x.2 ∧ new < moveStart old new x.2))).map Prod.fst,
             direct := f.direct.map (fun x => { x with frame := moveStart old new x.frame }) })
  let s := s.modRealm m (fun r => { r with tiles := r.tiles.map (fun x => (x.1, moveTile old new x.2)) })
  let s := s.modBil m (fun b =>
    { b with effects := b.effects.map (moveEffect old new), fwds := b.fwds.map (fun w => { w with frame := moveN d w.frame }) })
  let s := s.modPair m (fun p => { p with takeReq := p.takeReq.map (moveN d), release := p.release.map (moveN d) })
  s.raise m 0x1401 o14_FRAME_NUMBER

/-- The next frame number. -/
def countFrame (s : State) (m : RealmId) : State :=
  let f := s.frame m
  let ptp := decide (selected s m = 0)
  let s :=
    if f.ticked = false then s.modFrame m (fun f => { f with number := if ptp then ptpFrame s m else 0 })
    else if ptp && !f.byPtp then realign s m (ptpFrame s m)
    else s.modFrame m (fun f => { f with number := f.number + 1 })
  s.modFrame m (fun f =>
    { f with byPtp := ptp, prevTick := f.tickAt, tickAt := s.now, ticked := true, started := false, deadline := false,
             k := if f.running then f.k + 1 else f.k })

/-! ## Effects at a tick -/

def insertEffect (e : Effect) : List Effect → List Effect
  | [] => [e]
  | x :: r => if x.frame ≤ e.frame then x :: insertEffect e r else e :: x :: r

/-- Effects in the order of their frames, and of acceptance within one. -/
def effectOrder (l : List Effect) : List Effect := l.foldl (fun a e => insertEffect e a) []

/-- P0_WORST and P1_WORST (12 R432); a frame-stamped write is not within them. -/
def noteWorst (s : State) (m : RealmId) (p0 : Bool) (d : Time) : State :=
  let k := if p0 then o28_P0_WORST else o28_P1_WORST
  s.oput m k ((Nat.max (s.onat m k) (Nat.min ((d + 999) / 1000) 0xFFFFFFFF) : Nat) : Int)

/-- Records adopted at this tick: the new values are those of their objects. -/
def applyEffects (s : State) (m : RealmId) : State :=
  let due := fun (e : Effect) => !e.rw && !e.moved && decide (e.frame ≤ s.frameNo m)
  let es := effectOrder ((s.realm m).bil.effects.filter due)
  let s := s.modBil m (fun b => { b with effects := b.effects.filter (fun e => !due e) })
  es.foldl (fun s e =>
    let s := s.oput m e.key e.value
    if e.stamped then s else noteWorst s m e.p0 (s.now - e.receipt)) s

/-- Keys of objects that stop at 0xFFFF_FFFF. -/
def stopsKey (k : Nat) : Bool := ((keyRow k).map (·.stops)).getD false

/-- COUNTERS_CLEAR takes effect (13 R453). -/
def clearCounters (s : State) (m : RealmId) : State :=
  if (s.realm m).bil.clear then
    let s := s.modRealm m (fun r => { r with objs := r.objs.filter (fun x => !stopsKey x.1), bil := { r.bil with clear := false } })
    s.oput m o11_COUNTERS_CLEARED_AT (s.frameNo m : Nat)
  else s

/-! ## The media count (11 R395) -/

def mediaTick (s : State) (m : RealmId) : State :=
  let tb := s.onat m o24_TB_STATE
  if 2 ≤ tb ∧ tb ≤ 4 then
    let x := s.tbNs m * s.rate m
    match (s.net m).media with
    | none => s.modNet m (fun n => { n with media := some ((x + 500000000) / 1000000000) })
    | some mc =>
      let d : Int := (x : Int) - ((mc + 1) * 1000000000 : Nat)
      if 750000000 < d then (s.modNet m (fun n => { n with media := some (mc + 2) })).bump m o24_MEDIA_SLIPS 1
      else if d < -750000000 then s.bump m o24_MEDIA_SLIPS 1
      else s.modNet m (fun n => { n with media := some (mc + 1) })
  else s.modNet m (fun n => { n with media := none })

/-! ## Slack tasks at a tick (R91, R94; R89) -/

/-- A tile that runs a slack task or a restore routine stops at the step boundary with its operations complete. -/
def preempt (s : State) (m : RealmId) (k : Nat) : State :=
  if ctxSlack (s.tile m k).ctx then
    let s := if (s.tile m k).opened then checkEnd (endStep s m k) m k else s
    match (s.tile m k).ctx with
    | .slack e =>
      let tab := slackTable (tileImg (s.frame m) (s.tile m k)) k
      (drain s m k).modTile m k (fun x =>
        let t := taskOf x e
        let pc := ((tab[e]?).map (·.save)).getD 0
        let y := setTask x e ⟨some x.pc, true, t.ended, t.job, t.damaged⟩
        { y with ctx := .save e, pc := pc, nextPc := pc + 1 })
    | .restore _ => (drain s m k).modTile m k (fun x => { x with ctx := .idle })
    | _ => s
  else s

/-- Free tasks that have halted restart at their entry address. -/
def restartTasks (s : State) (m : RealmId) (k : Nat) : State :=
  let f := firstFree (slackTable (runImg (s.frame m)) k)
  s.modTile m k (fun x =>
    { x with tasks := x.tasks.filter (fun t => decide (t.1 < f) || !t.2.ended) })

/-- A vector by a RESULT address: 0 X, 1 Y, 2 deep, 3 exchange. -/
def resultVec (s : State) (m : RealmId) (k result : Nat) : Vec × State :=
  let a := result % 1073741824
  match result / 1073741824 with
  | 0 => s.rdVec m k (a / 16 % 8192)
  | 1 => s.rdVec m (0x10 + k) (a / 16 % 8192)
  | 2 => s.rdVec m (0x40 + a / 262144 % 64) (a / 16 % 16384)
  | _ => s.rdVec m 0x80 (a / 16 % 32768)

/-- The header shows the job of frame `j` complete. -/
def jobComplete (v : Vec) (epoch task j : Nat) : Bool :=
  laneOk v.q0 && laneOk v.q1 && laneOk v.q2 && v.q2.data == 1 && v.q1.data == BitVec.ofNat 32 j
    && v.q0.data == BitVec.ofNat 32 (epoch * 65536 + task)

/-- How the running image takes a slack result (03 R99). -/
inductive Age where
  | current
  | predecessor
  | stale
  deriving DecidableEq, Repr

/-- A result's age by its epoch: the predecessor epoch is that of the handover's TASK entry or else the slack table's, and counts
only with ACCEPT_STALE; epoch 0 is never a result (03 R98, R99; 06 R238). -/
def resultAge (s : State) (m : RealmId) (k : Nat) (e : SlackEnt) (epoch : Nat) : Age :=
  let pred := ((s.frame m).preds.find? (fun p => p.1 == k * 65536 + e.taskId)).elim e.predEpoch (·.2)
  if epoch = 0 then .stale
  else if epoch = imgEpoch (runImg (s.frame m)) then .current
  else if e.tflags % 2 = 1 ∧ epoch = pred then .predecessor
  else .stale

/-- A job frame of a bound task. -/
def jobFrame (e : SlackEnt) (n : Nat) : Bool := e.kind == 1 && e.period != 0 && n % e.period == e.phase

/-- The due tick of a bound job; an outgoing image's jobs are discarded (R96). -/
def jobDue (s : State) (m : RealmId) (k : Nat) : State :=
  let f := s.frame m
  let n := f.number
  if f.armed.map (·.frame) = some n then s
  else
    match (slackTable (runImg f) k)[0]?, (taskOf (s.tile m k) 0).job with
    | some e, some j =>
      if jobFrame e n then
        let (v, s) := resultVec s m k e.result
        if jobComplete v (imgEpoch (runImg f)) e.taskId j then s
        else ((s.bump m (o14_SLACK_LATE + 16 * k) 1).irq m 23).raise m 0x1407 (o14_SLACK_LATE + 16 * k)
      else s
    | _, _ => s

/-- SLACK_STEPS of the frame that has ended. -/
def publishSlack (s : State) (m : RealmId) (k : Nat) : State :=
  (s.oput m (o14_SLACK_STEPS + 16 * k) ((s.tile m k).slackSteps : Nat)).modTile m k (fun x => { x with slackSteps := 0 })

/-- The tile is still in its frame's foreground program. -/
def ctxFrame (c : Ctx) : Bool :=
  match c with
  | .fore _ => true
  | .barrier _ _ => true
  | _ => false

/-- At the tick of a SWAP the tasks end without their save routines (R96). -/
def slackTick (s : State) (m : RealmId) : State :=
  let swaps := decide ((s.frame m).armed.map (·.frame) = some (s.frameNo m))
  forN 16 (fun k s =>
    let s := if swaps then s else preempt s m k
    let s := s.modTile m k (fun x => if ctxFrame x.ctx then x else { x with damaged := false })
    jobDue (restartTasks (publishSlack s m k) m k) m k) s

/-! ## FRAME_TICK (R72) -/

/-- The first tick after the one of the SWAP's frame (R121). -/
def swapDoneTick (s : State) (m : RealmId) : State :=
  let f := s.frame m
  match f.swapFrame with
  | some (g, _) =>
    if f.swapDone = false ∧ g < f.number then (s.modFrame m (fun f => { f with swapDone := true })).raise m 0x1405 o14_ACTIVE_BANK
    else s
  | none => s

def endCold (s : State) (m : RealmId) : State :=
  s.modFrame m (fun f => { f with cold := f.cold.filter (fun c => decide (f.number + 1 < c.start + c.len)) })

/-- Halves that the Keeper made current (R606). -/
def commitKeeper (s : State) (m : RealmId) : State :=
  s.modFrame m (fun f =>
    { f with keeperHalf := f.keeperPend.foldl (fun t x => tput 0 t x.1 x.2) f.keeperHalf, keeperPend := [] })

/-- ADMISSION_HEADROOM, every 1 ms. -/
def headroom (s : State) (m : RealmId) : State :=
  if s.frameNo m % windowLen s m = 0 ∧ (s.frame m).running ∧ telemetry s m then
    let v : Int := (windowPs (s.rate m) : Int) - (s.onat m o14_CRITICAL_STEPS * s.onat m o12_T_ADM : Nat)
    s.oput m o14_ADMISSION_HEADROOM (if v < -2147483648 then -2147483648 else v)
  else s

/-- The input word of a channel of an IN entry. -/
def endpointWord (s : State) (m : RealmId) (kind c : Nat) : Option Lane :=
  some (if kind = 0 then inWord s m c else netWord s m c)

def placeAll (s : State) (m : RealmId) : State := placeInputs s m (fun s kind c => endpointWord s m kind c)

/-- Ports and streams at a tick: what they deliver, and the packets that the last frame completes. -/
def portsTick (s : State) (m : RealmId) : State :=
  let s := tdmTick (mediaTick s m) m
  let s := forN 64 (fun k s => rxTick s m k) s
  let s := streams.foldl (fun s k => txTick s m k) s
  s.modNet m (fun n => { n with outs := none })

def frameTick (s : State) (m : RealmId) : State :=
  let s := clearCounters (countFrame (clearSent (clearSent s m 0) m 1) m) m
  let s := endCold (swapDoneTick (flushDirect (applyEffects s m) m) m) m
  let s := wckTick (refTick s m) m
  let s := slackTick (commitKeeper (portsTick s m) m) m
  let s := placeAll s m
  let s := stageDue (initIncoming (readmit s m) m (s.frameNo m)) m (s.frameNo m)
  let s := if s.frameNo m % 4294967296 = (s.realm m).bus.alarm.toNat then s.irq m 8 else s
  publishReady (releaseDue (windowTick (headroom s m) m) m) m

def execFrameTick (e : Ev) (s : State) : Result :=
  let s := s.at e.t
  .next (if (s.realm e.m).mode = .dormant ∨ (s.realm e.m).xo = false ∨ tickDue s e.m = false then s else frameTick s e.m)

/-! ## FOREGROUND_START (R74; 06 R203) -/

/-- The frame word of every tile. -/
def frameWords (s : State) (m : RealmId) : State :=
  let img := runImg (s.frame m)
  if hasMap img then
    let v : Vec := ⟨mkLane (BitVec.ofNat 32 (s.frameNo m)), mkLane 0, mkLane 0, mkLane 0⟩
    forN 16 (fun k s => s.wrVec m k ((paramMap img).word / 16 % 8192) v) s
  else s

/-- The next job of a bound task starts. -/
def startJob (s : State) (m : RealmId) (k : Nat) : State :=
  match (slackTable (runImg (s.frame m)) k)[0]? with
  | some e =>
    if jobFrame e (s.frameNo m) then s.modTile m k (fun x => setTask x 0 ⟨none, false, false, some (s.frameNo m), false⟩) else s
  | none => s

/-- A tile that is not late starts; a tile without a program issues one `HALT` (R106). -/
def startTile (s : State) (m : RealmId) (k : Nat) : State :=
  if (s.tile m k).ctx = .idle then
    let s := startFore s m k (s.frameNo m) 0
    if hasSec (runImg (s.frame m)) 0x0004 k then s else haltTile (endStep s m k) m k
  else s

def foregroundStart (s : State) (m : RealmId) : State :=
  let f := s.frame m
  let s := if f.swapFrame.map Prod.fst = some f.number then placeAll s m else s
  let s := forN 16 (fun k s => startJob s m k) (frameWords s m)
  forN 16 (fun k s => startTile s m k) s

def execForegroundStart (e : Ev) (s : State) : Result :=
  let s := s.at e.t
  let f := s.frame e.m
  if f.ticked = false ∨ f.started then .next s
  else
    let s := s.modFrame e.m (fun f => { f with started := true })
    .next (if f.running then foregroundStart s e.m else s)

/-! ## DEADLINE (R61, R67, R77, R78; 08 R286 to R290) -/

def insertEntry (x : XEnt) : List XEnt → List XEnt
  | [] => [x]
  | y :: r => if x.vector ≤ y.vector then x :: y :: r else y :: insertEntry x r

/-- OUT entries in the order of VECTOR. -/
def outEntries (img : List Byte) : List XEnt :=
  ((exchMap img).filter (fun x => x.cls == 1)).foldl (fun a x => insertEntry x a) []

/-- The words that a frame's outputs give: to the digest, to TDM channels, to network channels. -/
structure Outs where
  words : List (BitVec 32)
  tdm   : Tbl Lane
  net   : Tbl Lane
  deriving DecidableEq, Repr

def Outs.none : Outs := ⟨[], [], []⟩

/-- A lane of an OUT vector; the word emitted is zero while the port sends zero, and for one that fails its check after the port
mover (08 R285, R289, R290). One that no active slot carries is neither checked nor counted (R307). -/
def outLane (s : State) (m : RealmId) (x : XEnt) (i : Nat) (l : Lane) (again : Bool) (o : Outs) : Outs × State :=
  let ch := x.chan + i
  let c := if x.kind = 0 then ch else 0x1000 + ch
  if x.kind = 0 ∧ outActive s m ch = false then
    let w := if again then (s.chan m c).taken else l
    ({ o with words := w.data :: o.words }, s.modChan m c (fun y => { y with taken := w }))
  else
    let (w, g, s) := takeWord s m x.writer c l again
    if x.kind = 0 then
      let p := ch / 32
      let (y, clip) := portWord s m p g
      let s := if clip then s.bump m (o20_OUT_CLIPS + 16 * p) 1 else s
      let sent := if portLive (portState s m p) && laneOk y then y else zeroLane
      ({ o with words := w.data :: o.words, tdm := tput zeroLane o.tdm ch y }, emitted s m c sent)
    else ({ o with words := w.data :: o.words, net := tput zeroLane o.net ch g }, emitted s m c (if laneOk g then g else zeroLane))

/-- The writer has neither reached its `HALT` of the frame nor written the vector in it. -/
def repeats (s : State) (m : RealmId) (x : XEnt) : Bool :=
  let y := s.tile m x.writer
  let n := s.frameNo m
  y.halted != some n && !(y.frame == n && y.written.contains x.vector)

def outEntry (s : State) (m : RealmId) (x : XEnt) (o : Outs) : Outs × State :=
  let again := repeats s m x
  let (v, s) := s.rdVec m 0x80 x.vector
  (List.range 4).foldl (fun a i => outLane a.2 m x i (v.get ⟨i % 4, Nat.mod_lt _ (by decide)⟩) again a.1) (o, s)

def takeOuts (s : State) (m : RealmId) : Outs × State :=
  (outEntries (runImg (s.frame m))).foldl (fun a x => outEntry a.2 m x a.1) (Outs.none, s)

/-- Every port is given the words of its active output slots. -/
def feedPorts (s : State) (m : RealmId) (t : Tbl Lane) : State :=
  forN 16 (fun p s =>
    sendFrame s m p ((List.range (outSlots s m p).length).map (fun i => tget zeroLane t (32 * p + i)))) s

/-- A tile that has not reached `HALT` of the frame overruns. -/
def overruns (s : State) (m : RealmId) : State :=
  let n := s.frameNo m
  (List.range 16).foldl (fun s k => if (s.tile m k).halted = some n then s else overrun s m k) s

def frameDeadline (s : State) (m : RealmId) : State :=
  let s := if (s.frame m).running then overruns s m else s
  let (o, s) := takeOuts s m
  let s := (feedPorts s m o.tdm).modNet m (fun n => { n with outs := some o.net })
  let s := digestWords s m o.words.reverse
  s.modFrame m (fun f => { f with deadline := true })

def execDeadline (e : Ev) (s : State) : Result :=
  let s := s.at e.t
  let f := s.frame e.m
  .next (if f.started = false ∨ f.deadline then s else frameDeadline s e.m)

/-! ## Staged records (06 R204; 12 R435) -/

/-- The earliest start frame with a record that the tile has not got. -/
def nextStart (s : State) (m : RealmId) (k : Nat) : Option Nat :=
  ((s.realm m).bil.effects.filter (fun e => !e.rw && !e.moved && !e.tiles.contains k)).foldl (fun a e =>
    match a with
    | some f => some (Nat.min f e.frame)
    | none => some e.frame) none

/-- The Keeper writes the tile's records of the earliest start frame that is due. It waits while the tile has yet to
adopt an earlier record; a wait ends at the tick of R204, when `stageDue` writes the record in any case. -/
def execStagedRecordWrite (e : Ev) (tile : TileId) (s : State) : Result :=
  let s := s.at e.t
  match nextStart s e.m tile.val with
  | some f =>
    .next (if (s.realm e.m).bus.keeper ∧ awaiting s e.m tile.val f = false then stageTile s e.m tile.val f else s)
  | none => .next s

/-- The start frame of a record that waits to be rewritten, when the count has passed it: the next frame. -/
def rewriteStart (n : Nat) (e : Effect) : Effect :=
  if e.moved then { e with frame := if e.frame ≤ n then n + 1 else e.frame, tiles := [], moved := false } else e

/-- The records that those writes staged. -/
def rewriteHeld (n : Nat) (late : List Nat) (h : Held) : Held :=
  { h with pend := h.pend.map (fun r => if late.contains r.s then { r with s := n + 1 } else r) }

/-- The exponents whose records were pending, with their start frames as moved. -/
def rewriteExponents (s : State) (m : RealmId) : State :=
  (s.frame m).hrMoved.foldl (fun s u =>
    stageExponent s m (paramMap (runImg (s.frame m))) u (tget 0 (s.frame m).hrStaged u)
      (Nat.max (tget 0 (s.frame m).hrStart u) (s.frameNo m + 1))) s

/-- Within 1 ms of FRAME_REALIGN the Keeper rewrites the start frame of every pending record (06 R205). -/
def execStampRewrite (e : Ev) (s : State) : Result :=
  let s := s.at e.t
  let m := e.m
  let n := s.frameNo m
  let es := (s.realm m).bil.effects.filter (·.moved)
  if (es = [] ∧ (s.frame m).hrMoved = []) ∨ (s.realm m).bus.keeper = false then .next s
  else
    let s := rewriteExponents s m
    let late := es.filter (fun e => decide (e.frame ≤ n))
    let s := (late.filter (·.stamped)).foldl (fun s _ => s.raise m 0x2801 o28_STAMPED_PENDING) s
    let s := s.modRealm m (fun r => { r with tiles := r.tiles.map (fun x =>
      (x.1, { x.2 with slots := x.2.slots.map (fun h => (h.1, rewriteHeld n (late.map (·.frame)) h.2)) })) })
    let s := s.modBil m (fun b => { b with effects := b.effects.map (rewriteStart n) })
    let frames := dedup ((es.map (rewriteStart n)).map (·.frame))
    .next (frames.foldl (fun s f => forN 16 (fun k s => stageTile s m k f) s) s)

/-! ## The watchdog (14 R474; 15 R520) -/

/-- What Keeper RAM holds of Biluno is lost; a record that is in tile memory is still adopted. -/
def biLost (s : State) (m : RealmId) : State :=
  s.modBil m (fun b =>
    { b with sessions := [], subs := [], reply := [], hostQ := [], fwds := [], clear := false,
             effects := (b.effects.filter (fun e => !e.rw && !e.tiles.isEmpty)).map (fun e => { e with tiles := List.range 16 }) })

def execWatchdogExpiry (e : Ev) (s : State) : Result :=
  let s := s.at e.t
  let m := e.m
  let b := (s.realm m).bus
  if b.keeper = false ∨ s.now < b.refreshed + sec 1 then .next s
  else
    let s := biLost (keeperStart (s.resetMaster m 0) m) m
    let s := (s.oput m o2A_PATCH_STATE 0).oput m o2A_PATCH_ID 0
    .next (mirrorReady (emptyBoxes s m) m 0)

end Sys2Proof.Machine
end

