-- ==== Sys2Proof/Machine/Values.lean ====
section
/-!
DEFINITION. Values of objects on the wire (12 R411, Table 12-1), the objects whose value is read from other state, and
the Light List (06 R239, R240, R243).
MARKED CHOICES of this file (DESIGN CHOICE, DEDUCED or PRESUMED): log entries 7 and 64.
-/
namespace Sys2Proof.Machine

/-! ## Wire forms -/

def wireMod (n : Nat) (v : Int) : List Byte := toLe n (v % ((256 ^ n : Nat) : Int)).toNat

def wire (ty : Ty) (v : Int) : List Byte :=
  match ty with
  | .bool => wireMod 1 v
  | .u n => wireMod n v
  | .s n => wireMod n v
  | .gain => wireMod 2 v
  | .ts => wireMod 10 v
  | .str => wireMod (1 + v.toNat % 256) v
  | .blob n => wireMod n v
  | .arr n => wireMod (4 * n) v
  | .cmd => []

/-- Two's complement of `n` bytes. -/
def signedOf (n v : Nat) : Int := if 2 * v < 256 ^ n then (v : Int) else (v : Int) - (256 ^ n : Nat)

def unwire (ty : Ty) (b : List Byte) : Int :=
  match ty with
  | .s n => signedOf n (leBytes b)
  | .gain => signedOf 2 (leBytes b)
  | _ => (leBytes b : Nat)

/-- One byte of UTF-8: continuation bytes still expected and the bounds of the next one; `none` after an error. -/
def utf8Step (st : Option (Nat × Nat × Nat)) (b : Byte) : Option (Nat × Nat × Nat) :=
  let x := b.toNat
  match st with
  | none => none
  | some (0, _, _) =>
    if x < 0x80 then some (0, 0, 0)
    else if 0xC2 ≤ x ∧ x ≤ 0xDF then some (1, 0x80, 0xBF)
    else if x = 0xE0 then some (2, 0xA0, 0xBF)
    else if x = 0xED then some (2, 0x80, 0x9F)
    else if 0xE1 ≤ x ∧ x ≤ 0xEF then some (2, 0x80, 0xBF)
    else if x = 0xF0 then some (3, 0x90, 0xBF)
    else if 0xF1 ≤ x ∧ x ≤ 0xF3 then some (3, 0x80, 0xBF)
    else if x = 0xF4 then some (3, 0x80, 0x8F)
    else none
  | some (n + 1, lo, hi) => if lo ≤ x ∧ x ≤ hi then some (n, 0x80, 0xBF) else none

def utf8Ok (b : List Byte) : Bool :=
  match b.foldl utf8Step (some (0, 0, 0)) with
  | some (0, _, _) => true
  | _ => false

/-- The length and form of a value fit its type (R411); a BLOB's or an ARRAY's length is that of its COUNT. -/
def formOk (ty : Ty) (b : List Byte) : Bool :=
  match ty with
  | .bool => b.length == 1
  | .u n => b.length == n
  | .s n => b.length == n
  | .gain => b.length == 2
  | .ts => b.length == 10
  | .str => b != [] && b.length == 1 + byteAt b 0 && decide (byteAt b 0 ≤ 64) && utf8Ok (b.drop 1)
  | .blob _ => true
  | .arr _ => true
  | .cmd => false

/-- The value lies in the range of its type and of its object. -/
def rangeOk (r : ObjRow) (v : Int) : Bool :=
  let ty := match r.ty with
    | .bool => decide (v = 0 ∨ v = 1)
    | .gain => decide (v = -32768 ∨ (-14400 ≤ v ∧ v ≤ 2400))
    | _ => true
  ty && (r.ivs.isEmpty || r.ivs.any (fun iv => decide (iv.1 ≤ v ∧ v ≤ iv.2 ∧ (v - iv.1) % (r.step : Int) = 0)))

/-! ## The Light List -/

/-- A segment (Table 6-10). -/
structure Light where
  src   : Nat
  srcN  : Nat
  dst   : Nat
  dstN  : Nat
  lat   : Nat
  delays : Nat
  deriving DecidableEq, Repr

def lightBytes (s : State) (m : RealmId) : List Byte := secBytes (runImg (s.frame m)) 0x000C 0xFF
def lightCount (s : State) (m : RealmId) : Nat := (lightBytes s m).length / 16

def lightAt (b : List Byte) (n : Nat) : Light :=
  let o := 16 * n
  ⟨le b o 2, le b (o + 2) 2, le b (o + 4) 2, le b (o + 6) 2, le b (o + 8) 2, le b (o + 11) 1⟩

/-- An object of page 0x66. -/
def lightGet (s : State) (m : RealmId) (k : Nat) : Int :=
  let i := keyIndex k
  if i = 0 then (lightCount s m : Nat)
  else
    let n := i - 0x1000
    if n < lightCount s m then
      (le (lightBytes s m) (16 * n + 4 * keyElem k) (if keyElem k = 2 then 2 else 4) : Nat)
    else (Config.lightAbsent k % (if keyElem k = 2 then 65536 else 4294967296) : Nat)

def lightRow (k : Nat) : Option ObjRow :=
  let i := keyIndex k
  if i = 0 ∧ keyElem k = 0 then some ⟨0, 1, 0, .u 4, .ro, 0, [], 1, 3, false, false, false⟩
  else if i = 1 ∧ keyElem k = 0 then some ⟨1, 1, 0, .cmd, .cmd, 0, [], 1, 1, false, false, false⟩
  else if 0x1000 ≤ i ∧ keyElem k < 2 then some ⟨0x1000, 61440, keyElem k, .u 4, .ro, 0, [], 1, 3, false, false, false⟩
  else if 0x1000 ≤ i ∧ keyElem k = 2 then some ⟨0x1000, 61440, 2, .u 2, .ro, 0, [], 1, 3, false, false, false⟩
  else none

/-! ## Objects that show other state -/

def eventBytes (e : EventRec) : List Byte :=
  toLe 2 e.code ++ [if e.p0 then 1 else 0, 0] ++ toLe 4 e.src ++ toLe 8 e.frame ++ toLe 6 e.secs ++ toLe 4 e.nanos

/-- A DELAY_TIME, BUS_DELAY_TIME or OUT_DELAY object, by its key. -/
def isDelay (k : Nat) : Bool :=
  (keyPage k == 0x40 && decide (0x1000 ≤ keyIndex k) && keyElem k == 1)
    || (keyPage k == 0x50 && decide (0x400 ≤ keyIndex k) && keyElem k == 1) || (keyPage k == 0x58 && keyElem k == 3)

/-- DELAY_MAX or OUT_DELAY_MAX, which follows its delay by one element (13 R459, R462). -/
def isDelayMax (k : Nat) : Bool := keyElem k != 0 && isDelay (k - 1)

/-- The greatest delay that the running image compiles for a delay object; 0 when unbound. -/
def delayMax (s : State) (m : RealmId) (k : Nat) : Nat :=
  let img := runImg (s.frame m)
  if (paramMap img).binds.any (fun b => b.key == k) then Config.imageDelayMax (imgId img) k % 4294967296 else 0

/-- A bus with an EXPONENT binding. -/
def hrBound (s : State) (m : RealmId) (u : Nat) : Bool :=
  let pm := paramMap (runImg (s.frame m))
  let v := if linked pm u then u - u % 2 else u
  pm.binds.any (fun b => b.kind == 3 && expBus b == v)

/-- Pending frame-stamped writes (12 R434). -/
def stampedPending (s : State) (m : RealmId) : List Effect := (s.realm m).bil.effects.filter (·.stamped)

/-- The value in effect of a realm's object (12 R413); `k` is its key. -/
def realmGet (s : State) (m : RealmId) (k : Nat) : Int :=
  let f := s.frame m
  let i := keyIndex k
  let pm := paramMap (runImg f)
  if keyPage k = 0x66 then lightGet s m k
  else if k = o14_FRAME_NUMBER then (f.number : Nat)
  else if keyPage k = 0x18 ∧ 0x100 ≤ i ∧ keyElem k = 6 then
    (if 0x140 ≤ i ∧ i < 0x180 then (((s.realm m).deepPow (i - 0x140)).st : Nat) else 0)
  else if keyPage k = 0x18 ∧ i = 0x182 ∧ keyElem k = 3 then 0
  else if keyPage k = 0x18 ∧ 0x100 ≤ i ∧ keyElem k = 3 then (Config.repair m.val (i - 0x100) % 4294967296 : Nat)
  else if k = o24_PTP_TIME then tsInt (s.tbNs m)
  else if k = o28_SESSIONS_OPEN then ((s.realm m).bil.sessions.length : Nat)
  else if k = o28_STAMPED_PENDING then ((stampedPending s m).length : Nat)
  else if k = o2A_FW_VERSION then (Config.fwVersion % 4294967296 : Nat)
  else if k = o30_HEALTH then (healthWord s m : Nat)
  else if keyPage k = 0x20 ∧ 0x300 ≤ i ∧ i < 0x310 ∧ keyElem k = 3 ∧ isMaster s m (i - 0x300) then 0
  else if isDelayMax k then (delayMax s m (k - 1) : Nat)
  else if keyPage k = 0x50 ∧ i < 128 ∧ keyElem k = 7 then (if linked pm i then 1 else 0)
  else if keyPage k = 0x5F ∧ 0x100 ≤ i ∧ i < 0x110 then
    (if hasMap (runImg f) then ((freeSlots (s.tile m (i - 0x100)).slots pm.slots f.number).length : Nat) else 0)
  else if keyPage k = 0x5F ∧ 0x200 ≤ i then
    (let n := busActive s m (runImg f) f.number (i - 0x200)
     if keyElem k = 1 then (n : Nat) else if hrBound s m (i - 0x200) then (busExponent n : Nat) else 0)
  else s.oget m k

/-- The index that stores an object: that of the even member of a stereo pair (06 R241; 13 R460). STEREO_LINK is each
bus's own. -/
def homeKey (s : State) (m : RealmId) (k : Nat) : Nat :=
  if keyPage k = 0x50 ∧ keyElem k = 7 then k else aliasKey (paramMap (runImg (s.frame m))) k

/-- The bytes of an object's value: of a DEV object through the host port or from the copy, of a realm's object. -/
def objBytes (s : State) (m : RealmId) (host : Bool) (k : Nat) (ty : Ty) : List Byte :=
  if keyPage k < 0x10 then wire ty (if host then devGet s k else copyGet s k)
  else if k = o11_EVENT_LOG then
    (List.range 256).flatMap (fun j => eventBytes (tget EventRec.zero (s.realm m).bil.log j))
  else wire ty (realmGet s m (homeKey s m k))

/-! ## LL_QUERY (06 R240, R243) -/

/-- An entry covers a node as its source, as its destination. -/
def lightFrom (x : Light) (n : Nat) : Bool := n / 4096 == x.src / 4096 && decide (x.src ≤ n ∧ n < x.src + x.srcN)
def lightTo (x : Light) (n : Nat) : Bool := n / 4096 == x.dst / 4096 && decide (x.dst ≤ n ∧ n < x.dst + x.dstN)

/-- The set delay of the block whose switch and time are the objects `sw` and `time`, where the running image binds it (13
R457): an image has the block if it binds its time. -/
def blockDelay (s : State) (m : RealmId) (sw : Option Nat) (time : Nat) : List Nat :=
  let on := fun k => s.onat m (homeKey s m k)
  if (paramMap (runImg (s.frame m))).binds.any (fun b => b.key == homeKey s m time) then
    [if sw.all (fun k => on k == 1) then on time else 0]
  else []

/-- The blocks of a strip or bus. -/
def nodeDelays (s : State) (m : RealmId) (a : Nat) : List Nat :=
  let i := a % 4096
  if a / 4096 = 2 then blockDelay s m (some (o40_DELAY_ON + 16 * i)) (o40_DELAY_TIME + 16 * i)
  else if a / 4096 = 3 then blockDelay s m (some (o50_BUS_DELAY_ON + 16 * i)) (o50_BUS_DELAY_TIME + 16 * i)
  else []

/-- Set delays of the blocks that may lie on a segment from node `a` to node `b`: of the strip or bus that it leaves, of the strip,
bus or output that it reaches. -/
def segDelays (s : State) (m : RealmId) (a b : Nat) : List Nat :=
  let o := b % 4096
  nodeDelays s m a
    ++ (if b / 4096 = 0 then blockDelay s m none (o58_OUT_DELAY + 16 * o)
        else if b / 4096 = 1 then blockDelay s m none (o58_2000_OUT_DELAY + 16 * o)
        else nodeDelays s m b)

/-- The latency of a segment; where fewer blocks lie on it than it might have, which ones is open. -/
def segLatency (s : State) (m : RealmId) (free a b : Nat) (x : Light) : Nat :=
  let d := segDelays s m a b
  if x.delays = 0 then x.lat
  else if d.length ≤ x.delays then x.lat + d.foldl (· + ·) 0
  else x.lat + d.getD (free % 2) 0

/-- Nodes that a segment from `a` leads to, with its latency. -/
def lightSteps (s : State) (m : RealmId) (free : Nat) (ls : List Light) (a dst : Nat) : List (Nat × Nat) :=
  (ls.filter (fun x => lightFrom x a)).flatMap (fun x =>
    ((List.range x.dstN).filterMap (fun j =>
      let b := x.dst + j
      if b / 4096 = x.dst / 4096 ∧ (2 ≤ b / 4096 ∨ b = dst) then some (b, segLatency s m free a b x) else none)))

/-- Latencies of the paths from `a` to `dst` that pass no strip or bus twice. A source is an input, a strip or a bus; only a
strip or a bus continues a path, and it is told from an output by its kind. -/
def lightPaths (s : State) (m : RealmId) (free : Nat) (ls : List Light) (dst : Nat) :
    Nat → List Nat → Nat → Nat → List Nat
  | 0, _, _, _ => []
  | n + 1, seen, a, sum =>
    (lightSteps s m free ls a dst).flatMap (fun (b, l) =>
      if b = dst then [sum + l]
      else if seen.contains b then []
      else lightPaths s m free ls dst n (b :: seen) b (sum + l))

/-- The latency between two nodes; where several paths join them, of one of them. -/
def lightQuery (s : State) (m : RealmId) (src dst : Nat) : Option Nat × State :=
  let b := lightBytes s m
  let ls := (List.range (lightCount s m)).map (lightAt b)
  let (x, s') := s.draw
  match lightPaths s m x ls dst 641 [src] src 0 with
  | [] => (none, s)
  | l => (some (l.getD (x % l.length) 0), s')

end Sys2Proof.Machine
end

