-- ==== Sys2Proof/Machine/Judge.lean ====
section
/-!
DEFINITION. The checks that a Biluno message and its operations pass (12 R409, R412, R414, R417, R419 to R422, R426,
R433, R441, R442, R445; 17 R567), in the orders of Tables 12-5 and 12-6.
MARKED CHOICES of this file (DESIGN CHOICE, DEDUCED or PRESUMED): log entries 50, 59 and 61.
-/
namespace Sys2Proof.Machine

/-! ## Fields of an operation (R417) -/

def Op.ramp (o : Op) : Bool := o.flags % 2 == 1
def Op.rampLen (o : Op) : Nat := if o.ramp then 4 else 0
/-- Where RAMP_TIME and the value begin. -/
def Op.rampOff (o : Op) : Nat := if o.code = 3 then 8 else 0
def Op.valOff (o : Op) : Nat := o.rampOff + o.rampLen
def Op.frame (o : Op) : Nat := le o.body 0 8
def Op.rampTime (o : Op) : Option Nat := if o.ramp then some (le o.body o.rampOff 4) else none
/-- START and COUNT of a READ, or in front of the data of a WRITE. -/
def Op.rangeOff (o : Op) : Nat := if o.code = 1 then 0 else o.valOff
def Op.start (o : Op) : Nat := le o.body o.rangeOff 2
def Op.count (o : Op) : Nat := le o.body (o.rangeOff + 2) 2

def isSized (ty : Ty) : Bool :=
  match ty with
  | .blob _ => true
  | .arr _ => true
  | _ => false

def tySize (ty : Ty) : Nat :=
  match ty with
  | .blob n => n
  | .arr n => n
  | _ => 1

/-- The bytes of the value that a WRITE or WRITE_AT carries. -/
def Op.value (o : Op) (ty : Ty) : List Byte := o.body.drop (o.valOff + (if isSized ty then 4 else 0))

def Op.isWrite (o : Op) : Bool := o.code == 2 || o.code == 3 || o.code == 6 || o.code == 4 || o.code == 5
/-- WRITE, WRITE_AT and CALL. -/
def Op.changes (o : Op) : Bool := o.code == 2 || o.code == 3 || o.code == 6

/-! ## Objects -/

def rowOf (k : Nat) : Option ObjRow := if keyPage k = 0x66 then lightRow k else keyRow k

/-- The row of an object ID in whatever realm, or in DEV. -/
def oidRow (oid : Nat) : Option ObjRow :=
  let k := oidKey oid
  if oidScope oid < 4 then (if 0x10 ≤ keyPage k then rowOf k else none)
  else if oidScope oid = 15 then (if keyPage k < 0x10 then rowOf k else none)
  else none

/-- Who asks: the session, its role, whether it comes through the host port, in the partner's forwarding session, and whether
the Host Hub answers rather than realm `m`. -/
structure Asker where
  m    : RealmId
  hub  : Bool
  sess : Nat
  role : Nat
  host : Bool
  fwd  : Bool
  deriving DecidableEq, Repr

/-- A scope from 0x4 to 0xE (00 R11). -/
def reservedScope (oid : Nat) : Bool := decide (4 ≤ oidScope oid ∧ oidScope oid < 15)

/-- Orders 2 to 4 of Table 12-6: the object, or the code. -/
def target (a : Asker) (o : Op) : Except Nat ObjRow :=
  let sc := oidScope o.oid
  if reservedScope o.oid then .error 0x10
  else if sc < 4 ∧ (a.hub ∨ sc ≠ a.m.val) then .error 0x11
  else if sc = 15 ∧ a.host = false ∧ o.changes then .error 0x11
  else
    match oidRow o.oid with
    | some r => .ok r
    | none => .error 0x12

def readable (r : ObjRow) : Bool :=
  match r.acc with
  | .wo => false
  | .cmd => false
  | _ => true

def writable (r : ObjRow) : Bool :=
  match r.acc with
  | .ro => false
  | .cmd => false
  | _ => true

/-- A write to it is ramped or staged (Table 12-2). -/
def staged (r : ObjRow) : Bool := r.acc == .rwr || r.acc == .rwf

/-! ## The message checks (Table 12-5) -/

/-- Orders 1 to 3: the code and the detail. -/
def checkOuter (d : List Byte) (got limit : Nat) : Option (Nat × Nat) :=
  let h := header d
  if h.version ≠ 1 then some (2, 0)
  else if h.len ≠ got ∨ limit < h.len then some (1, got)
  else if crcOk d = false then some (3, 0)
  else none

/-- Where the operations begin. -/
def opStarts : List Op → Nat → List Nat
  | [], _ => []
  | o :: r, p => p :: opStarts r (p + 8 + o.body.length)

/-- Order 9 for one operation. -/
def countBad (o : Op) : Bool :=
  match oidRow o.oid with
  | some r =>
    let sized := isSized r.ty && (o.code == 1 || o.code == 2 || o.code == 3)
    if sized || o.code == 1 then
      if o.body.length < o.rangeOff + 4 then false
      else if isSized r.ty then decide (o.count = 0 ∨ tySize r.ty < o.start + o.count)
      else decide (o.start ≠ 0 ∨ o.count ≠ 1)
    else false
  | none => false

/-- Order 10 for one operation. -/
def bodyBad (o : Op) : Bool :=
  let n := o.body.length
  if 1 < o.flags ∨ (o.ramp ∧ o.code ≠ 2 ∧ o.code ≠ 3) then true
  else if o.code = 1 then n != 4
  else if o.code = 2 ∨ o.code = 3 then
    match oidRow o.oid with
    | some r =>
      if isSized r.ty then
        n != o.valOff + 4 + (match r.ty with | .arr _ => 4 * o.count | _ => o.count)
      else decide (n < o.valOff)
    | none => decide (n < o.valOff)
  else if o.code = 4 then n != 8
  else if o.code = 5 then n != 2
  else if o.code = 7 then n != 20
  else if o.code = 8 then n != 0
  else if o.code = 9 then decide (n < 4)
  else false

def indexOf (p : Op → Bool) : List Op → Nat → Option Nat
  | [], _ => none
  | o :: r, j => if p o then some j else indexOf p r (j + 1)

/-- Orders 7 to 10. -/
def checkInner (d : List Byte) (maxOps : Nat) : Option (Nat × Nat) :=
  let h := header d
  let fin := d.length - 4 - h.tag
  if maxOps < h.count then some (7, 0)
  else if 8 ≤ h.flags then some (1, 3)
  else
    let (ops, bad) := parseOps d fin h.count 16
    match bad with
    | some p => some (1, p)
    | none =>
      match indexOf (fun o => o.code == 9) ops 0 with
      | some j =>
        if ops.length ≠ 1 then some (1, (opStarts ops 16).getD j 0)
        else ((indexOf countBad ops 0).map (fun j => (8, j))).or ((indexOf bodyBad ops 0).map (fun j => (1, j)))
      | none => ((indexOf countBad ops 0).map (fun j => (8, j))).or ((indexOf bodyBad ops 0).map (fun j => (1, j)))

/-- The operations of a message that passes the checks. -/
def opsOf (d : List Byte) : List Op := (parseOps d (d.length - 4 - (header d).tag) (header d).count 16).1

/-! ## Conditions of the objects (orders 8 to 11) -/

/-- The order of Table 12-6 at which an error is reported. -/
def rank (code : Nat) : Nat := if code = 0x15 then 7 else if code = 0x16 then 8 else if code = 0x17 then 9 else if code = 0x19 then 11 else 10

/-- The first error in the table's order. -/
def firstErr : List (Option Nat) → Option Nat
  | [] => none
  | none :: r => firstErr r
  | some c :: r =>
    match firstErr r with
    | some d => if rank d < rank c then some d else some c
    | none => some c

def errIf (b : Bool) (code : Nat) : Option Nat := if b then some code else none

/-- The forwarded set (17 R563, R567). -/
def forwardedSet (k : Nat) : Bool :=
  [0x40, 0x50, 0x58, 0x5F, 0x60, 0x70].contains (keyPage k) || k == o14_SWAP || k == o14_SWAP_CANCEL

/-- Conditions that the object's own rules put on a value; `k` is the key of a realm's object. -/
def objectErr (s : State) (m : RealmId) (k : Nat) (r : ObjRow) (v : Int) : Option Nat :=
  let i := keyIndex k
  let e := keyElem k
  let n := v.toNat
  let img := runImg (s.frame m)
  let bound := (paramMap img).binds.any (fun b => b.key == k)
  if k = o12_FIXED_REQUEST then fixedRequestErr s m
  else if keyPage k = 0x18 ∧ 0x100 ≤ i then powerStateErr s m (i - 0x100) n
  else if keyPage k = 0x20 ∧ 0x100 ≤ i ∧ i < 0x110 ∧ e = 0 then portEnableErr s m (i - 0x100) n
  else if keyPage k = 0x20 then portObjectErr s m i e n
  else if k = o22_SAMPLE_RATE then sampleRateErr s m
  else if k = o22_REF_PATH then refPathErr s m
  else if k = o22_LOCK_WINDOW ∨ k = o22_LOCK_TOL ∨ k = o22_UNLOCK_TOL then lockObjectErr s m k n
  else if keyPage k = 0x22 ∧ 0x100 ≤ i ∧ i < 0x105 then candObjectErr (i - 0x100) e
  else if keyPage k = 0x22 ∧ 0x400 ≤ i then auxBusy s m (i - 0x400) e
  else if k = o24_LOCK_THRESHOLD then errIf (decide (s.onat m o24_UNLOCK_THRESHOLD ≤ n)) 0x16
  else if k = o24_UNLOCK_THRESHOLD then errIf (decide (n ≤ s.onat m o24_LOCK_THRESHOLD)) 0x16
  else if k = o24_NET_BANKS then netBanksErr s m n
  else if k = o24_MAC_ADDRESS ∨ k = o24_MAC_ADDRESS + 16 then errIf (n / 2 ^ 40 % 2 == 1) 0x16
  else if keyPage k = 0x26 ∧ e = 0 ∧ 0x100 ≤ i ∧ i < 0x140 then streamEnableErr s m false (i - 0x100) n
  else if keyPage k = 0x26 ∧ e = 0 ∧ 0x300 ≤ i ∧ i < 0x340 then streamEnableErr s m true (i - 0x300) n
  else if keyPage k = 0x26 then streamObjectErr s m i e
  else if k = o30_PAIR_MODE then pairModeErr s m
  else if k = o30_BEACON_GROUP then errIf (n != 0 && !isMulticast n) 0x16
  else if isDelay k then errIf (decide (delayMax s m k < n)) 0x16
  else if isSend k ∧ e = 3 then
    errIf ((s.frame m).running && !Config.imageTap (imgId img) (sendBus k) n) 0x16
  else if r.sel then errIf ((s.frame m).running && bound && !Config.imageCandidate (imgId img) k n) 0x16
  else none

/-! ## Commands -/

/-- Bytes of a command's arguments. -/
def argLen (k : Nat) : Nat :=
  if k = o01_IDENTITY_PROVE ∨ k = o01_KEY_HASH_BURN then 32
  else if k = o02_DEV_MODE_REQUEST ∨ k = o10_MODE_REQUEST ∨ k = o18_MBIST_START then 1
  else if k = o14_SWAP then 8
  else if k = o18_ERR_INJECT then 9
  else if k = o22_PHASE_ADJUST then 4
  else if k = o24_TIME_SET then 10
  else if keyPage k = 0x66 then 4
  else 0

def callRealm (k : Nat) : RealmId := realmIx (keyIndex k % 256)
/-- The output channel that a TALLY_UNMUTE names (State `OutSt.chans`). -/
def unmuteChan (k : Nat) : Nat := keyIndex k - 0x1000

def ttlPage1A (k : Nat) : Bool := keyPage k == 0x1A && decide (0x1000 ≤ keyIndex k)

/-- Conditions of a command (orders 8 to 11). -/
def callErr (s : State) (m : RealmId) (k : Nat) (b : List Byte) : Option Nat :=
  let i := keyIndex k
  if k = o01_KEY_HASH_BURN then keyBurnErr s
  else if k = o02_DEV_MODE_REQUEST then devModeErr s (le b 0 1)
  else if keyPage k = 2 ∧ 0x100 ≤ i ∧ keyElem k = 2 then realmStartErr s (callRealm k)
  else if keyPage k = 2 ∧ 0x100 ≤ i ∧ keyElem k = 3 then realmStopErr s (callRealm k)
  else if k = o10_MODE_REQUEST then modeRequestErr s m (le b 0 1)
  else if keyPage k = 0x12 ∧ 0x100 ≤ i then overrunClearErr s m (i - 0x100)
  else if k = o14_LOAD_BEGIN then errIf (loadBeginBusy s m) 0x18
  else if k = o14_LOAD_ABORT then errIf (loadState s m != 1) 0x1C
  else if k = o14_SWAP then swapError s m (le b 0 8)
  else if k = o14_SWAP_CANCEL then errIf (cancelLate s m) 0x19
  else if k = o18_MBIST_START then mbistErr s m (le b 0 1)
  else if k = o18_ERR_INJECT then errInjectErr s m (le b 0 1) (le b 1 4) (le b 5 4)
  else if k = o1A_POISON_CLEAR then poisonClearErr s m
  else if k = o1A_SAFE_ENTER then safeEnterErr s m
  else if k = o1A_SAFE_EXIT then safeExitErr s m
  else if ttlPage1A k then tallyUnmuteErr s m (unmuteChan k)
  else if k = o22_PHASE_ADJUST then phaseAdjustErr s m (signedOf 4 (le b 0 4))
  else if k = o24_TIME_SET then timeSetErr s m (le b 6 4)
  else if k = o30_TAKE then takeErr s m
  else if keyPage k = 0x66 then errIf ((lightQuery s m (le b 0 2) (le b 2 2)).1.isNone) 0x12
  else none

/-! ## The operation checks (Table 12-6, orders 1 to 11) -/

/-- Bounds of an effect (R432): 1 ms and 2 ms. -/
def bound (p0 : Bool) : Time := if p0 then ms 1 else ms 2
/-- Frames of a bound: floor and ceiling of B × f_s. -/
def boundFloor (s : State) (m : RealmId) (p0 : Bool) : Nat := s.rate m * (if p0 then 1 else 2) / 1000
def boundCeil (s : State) (m : RealmId) (p0 : Bool) : Nat := (s.rate m * (if p0 then 1 else 2) + 999) / 1000

/-- The frame of a WRITE_AT (R433; in the forwarding session 17 R567). The Host Hub keeps no frame number. -/
def frameErr (s : State) (a : Asker) (p0 : Bool) (f : Nat) : Option Nat :=
  let n := s.frameNo a.m
  let near : Nat := if a.fwd then 3 else boundCeil s a.m p0 + 1
  if n + 16777216 < f then some 0x16 else errIf (decide (f < n + near)) 0x19

/-- In STANDBY the forwarded set is the partner's (17 R567). -/
def standbyErr (s : State) (a : Asker) (o : Op) : Option Nat :=
  errIf (!a.hub && worksAs (s.realm a.m) == .standby && !a.fwd && forwardedSet (oidKey o.oid)) 0x17

/-- The new value of an object: a BLOB takes the bytes written from START on. -/
def newValue (s : State) (m : RealmId) (k : Nat) (r : ObjRow) (o : Op) : Int :=
  let b := o.value r.ty
  match r.ty with
  | .blob n =>
    let old := wire r.ty (s.oget m k)
    (leBytes ((old.take o.start ++ b ++ old.drop (o.start + o.count)).take n) : Nat)
  | ty => unwire ty b

def writeErr (s : State) (a : Asker) (r : ObjRow) (o : Op) : Option Nat :=
  let k := homeKey s a.m (oidKey o.oid)
  let v := newValue s a.m k r o
  if !writable r then some 0x13
  else if o.ramp ∧ r.acc ≠ .rwr then some 0x13
  else if a.hub ∧ o.code = 3 then some 0x13
  else if a.role < r.role then some 0x14
  else if !formOk r.ty (o.value r.ty) then some 0x15
  else
    firstErr
      [errIf (!rangeOk { r with ivs := if isDelay k then [] else r.ivs } v) 0x16,
       errIf (decide (2000000000 < o.rampTime.getD 0)) 0x16,
       standbyErr s a o,
       (if keyPage k < 0x10 then none else objectErr s a.m k r v),
       (if o.code = 3 then frameErr s a r.p0 o.frame else none)]

def callCheck (s : State) (a : Asker) (r : ObjRow) (o : Op) : Option Nat :=
  let k := oidKey o.oid
  if r.acc ≠ .cmd then some 0x13
  else if a.role < r.role then some 0x14
  else if o.body.length ≠ argLen k then some 0x15
  else firstErr [callErr s a.m k o.body, standbyErr s a o]

/-- The IDs of the objects that a SUBSCRIBE covers. -/
def spanIds (o : Op) (span : Nat) : List Nat := (List.range span).map (fun j => o.oid + 16 * j)

def subscribeErr (s : State) (a : Asker) (o : Op) : Option Nat :=
  let kind := le o.body 0 1
  let rate := le o.body 2 2
  let span := le o.body 4 2
  let fields : Bool := le o.body 1 1 == 0 && le o.body 6 2 == 0
    && (if kind = 1 then decide (10 ≤ rate ∧ rate ≤ 100) else rate == 0)
    && (if kind = 2 then o.oid == 0 && span == 1 else decide (kind < 2 ∧ 1 ≤ span ∧ span ≤ 256))
  let full : Bool := decide (512 ≤ (s.realm a.m).bil.subs.length)
    || decide (64 ≤ ((s.realm a.m).bil.subs.filter (fun u => u.sess == a.sess)).length)
  let covered := fun id =>
    match target a { o with oid := id } with
    | .error c => some c
    | .ok r => if readable r then none else some 0x13
  let objs : Option Nat :=
    if kind = 2 then (if a.hub then some 0x13 else none)
    else
      let one := Nat.max 1 (Nat.min span 256)
      (if 0x10000 < oidKey o.oid / 16 % 0x10000 + one then some 0x12 else (spanIds o one).findSome? covered).or
        (if a.hub then some 0x13 else none)
  objs.or (firstErr [errIf (!fields) 0x16, errIf full 0x1F])

def unsubscribeErr (s : State) (a : Asker) (o : Op) : Option Nat :=
  if !a.hub && (s.realm a.m).bil.subs.any (fun u => u.id == le o.body 0 2 && u.sess == a.sess) then none else some 0x12

/-- OPEN (R428). -/
def openErr (s : State) (a : Asker) (o : Op) : Option Nat :=
  let slot := le o.body 0 1
  if a.hub ∨ a.sess ≠ 0 then some 5
  else if (slot < 8 ∧ slotRole s a.m slot ≠ 0) ∨ (slot = 0xFF ∧ s.onat a.m o28_UNAUTH_ROLE ≠ 0) then
    errIf (decide (s.onat a.m o28_SESSION_LIMIT ≤ (s.realm a.m).bil.sessions.length)) 9
  else some 0x12

/-- STREAM (R445). -/
def streamErr (s : State) (a : Asker) (o : Op) : Option Nat :=
  let n := o.body.length - 4
  if a.hub then some 0x11
  else if a.role < 3 then some 0x14
  else if n % 16 ≠ 0 ∨ n < 16 ∨ 1408 < n then some 0x15
  else if loadState s a.m ≠ 1 then some 0x1C
  else errIf (le o.body 0 4 != s.onat a.m o14_LOAD_BYTES) 0x1E

/-- The error of an operation, if any: orders 1 to 11 of Table 12-6. -/
def opErr (s : State) (a : Asker) (o : Op) : Option Nat :=
  if o.code = 0 ∨ 9 < o.code then some 0x21
  else if reservedScope o.oid then some 0x10
  else if o.code = 5 then unsubscribeErr s a o
  else if o.code = 7 then openErr s a o
  else if o.code = 8 then none
  else if o.code = 9 then streamErr s a o
  else if o.code = 4 then subscribeErr s a o
  else if o.code = 1 ∨ o.changes then
    match target a o with
    | .error c => some c
    | .ok r =>
      if o.code = 1 then errIf (!readable r) 0x13
      else if o.code = 6 then callCheck s a r o
      else writeErr s a r o
  else some 0x21

end Sys2Proof.Machine
end

