-- ==== Sys2Proof/Machine/Apply.lean ====
section
/-!
DEFINITION. What accepted Biluno operations do (12 R412, R413, R422 to R425, R428, R430, R432 to R437, R441, R442,
R445), and how the operations of a message run together.
MARKED CHOICES of this file (DESIGN CHOICE, DEDUCED or PRESUMED): log entries 57 to 60 and 62.
-/
namespace Sys2Proof.Machine

/-! ## Sessions -/

def State.session (s : State) (m : RealmId) (id : Nat) : Option Session := (s.realm m).bil.sessions.find? (fun x => x.id == id)

def State.modSession (s : State) (m : RealmId) (id : Nat) (f : Session → Session) : State :=
  s.modBil m (fun b => { b with sessions := b.sessions.map (fun x => if x.id = id then f x else x) })

/-- Sessions close, and their subscriptions end (R430). -/
def closeWhere (s : State) (m : RealmId) (p : Session → Bool) : State :=
  let ids := ((s.realm m).bil.sessions.filter p).map (·.id)
  s.modBil m (fun b => { b with sessions := b.sessions.filter (fun x => !p x), subs := b.subs.filter (fun u => !ids.contains u.sess) })

def closeSession (s : State) (m : RealmId) (id : Nat) : State := closeWhere s m (fun x => x.id == id)

/-- A session ID that is neither 0 nor all ones nor in use, from a free number on. -/
def freshId (used : List Nat) : Nat → Nat → Nat
  | 0, c => c % 4294967294 + 1
  | n + 1, c => if used.contains (c % 4294967294 + 1) then freshId used n (c + 1) else c % 4294967294 + 1

/-- OPEN (R428, R429): the session and the RESULT. -/
def openDo (s : State) (m : RealmId) (o : Op) (origin : Nat) : State × Op × Option (List Byte) :=
  let slot := le o.body 0 1
  let (x, s) := s.draw
  let (y, s) := s.draw
  let id := freshId ((s.realm m).bil.sessions.map (·.id)) 64 x
  let server := toLe 16 y
  let sk := sessionKey (slotKey s m slot) (slice o.body 4 16) server id
  let role := if slot = 0xFF then s.onat m o28_UNAUTH_ROLE else slotRole s m slot
  let se : Session := { id := id, slot := slot, role := role, tagged := slot != 0xFF, sk := sk, high := 0, replies := [],
                        lastAt := s.now, notifySeq := 0, origin := origin }
  let s := s.modBil m (fun b => { b with sessions := b.sessions ++ [se] })
  (s, resultOp o.oid (toLe 4 id ++ toLe 1 role ++ [0, 0, 0] ++ server), if slot = 0xFF then none else some sk)

/-! ## Writes to objects without a staged record -/

/-- The new value of an RW or WO object governs its function. -/
def putObject (s : State) (m : RealmId) (k : Nat) (v : Int) : State :=
  let i := keyIndex k
  let e := keyElem k
  let n := v.toNat
  if keyPage k < 0x10 then s.hput k v
  else if k = o12_FIXED_REQUEST then fixedRequestDo s m n
  else if keyPage k = 0x18 ∧ 0x100 ≤ i then powerStateDo s m (i - 0x140) n
  else if k = o1A_P0_MUTED ∨ k = o1A_HEALTH_MUTED then thresholdWritten (s.oput m k v) m k
  else if k = o20_MUTE_PIN_ENABLE then mutePinEnableDo s m n
  else if keyPage k = 0x20 ∧ 0x100 ≤ i ∧ i < 0x110 ∧ e = 0 then portEnableDo s m (i - 0x100) n
  else if k = o22_REF_PATH then refPathDo s m n
  else if k = o22_LOCK_WINDOW ∨ k = o22_LOCK_TOL ∨ k = o22_UNLOCK_TOL then lockObjectDo s m k n
  else if keyPage k = 0x22 ∧ 0x100 ≤ i ∧ i < 0x105 ∧ e = 0 then rankDo s m (i - 0x100) n
  else if k = o22_PULL_RATE then pullRateDo s m n
  else if k = o22_PULL_RANGE then pullRangeDo s m n
  else if k = o22_FREE_SLEW then freeSlewDo s m n
  else if k = o22_TICK_OFFSET then tickOffsetDo s m v
  else if k = o22_WCK_OUT_MODE then wckModeDo s m n
  else if k = o22_PPS_OUT_MODE then ppsModeDo s m n
  else if keyPage k = 0x20 ∧ 0x100 ≤ i ∧ i < 0x110 then idlePins (s.oput m k v) m (i - 0x100)
  else if keyPage k = 0x22 ∧ 0x400 ≤ i ∧ e = 0 then auxEnableDo s m (i - 0x400) n
  else if k = o24_PTP_ENABLE then ptpEnableDo s m n
  else if k = o24_PTP_PROFILE then ptpProfileDo s m n
  else if k = o24_PTP_PORT then ptpPortDo s m n
  else if k = o24_SLAVE_ONLY then slaveOnlyDo s m n
  else if k = o24_NET_BANKS then netBanksDo s m n
  else if k = o24_LINK_ENABLE ∨ k = o24_LINK_ENABLE + 16 then linkEnableWrite s m (i - 0x100) n
  else if keyPage k = 0x26 ∧ e = 0 ∧ 0x100 ≤ i ∧ i < 0x140 then streamEnableDo s m false (i - 0x100) n
  else if keyPage k = 0x26 ∧ e = 0 ∧ 0x300 ≤ i ∧ i < 0x340 then streamEnableDo s m true (i - 0x300) n
  else if keyPage k = 0x28 ∧ 0x100 ≤ i then closeWhere (s.oput m k v) m (fun x => x.slot == i - 0x100)
  else if k = o28_BILUNO_PORT then closeWhere (s.oput m k v) m (fun _ => true)
  else if k = o30_PAIR_MODE then pairModeDo s m n
  else if k = o30_REFEREE_ENABLE then
    (s.oput m k v).modPair m (fun p =>
      { p with refA := [], refS := none, refTake := none, since := if paired s m then p.since else s.now })
  else s.oput m k v

/-! ## Commands -/

/-- A command's outcome and the values it returns. -/
def callDo (s : State) (m : RealmId) (k : Nat) (b : List Byte) : State × List Byte :=
  let i := keyIndex k
  let n := callRealm k
  if k = o01_IDENTITY_PROVE then (s, identityProof b)
  else if k = o01_KEY_HASH_BURN then (keyBurnDo s b, [])
  else if k = o02_DEV_MODE_REQUEST then (devModeDo s (le b 0 1), [])
  else if keyPage k = 2 ∧ keyElem k = 2 then (realmStartDo s n, [])
  else if keyPage k = 2 ∧ keyElem k = 3 then ((realmStopDo s n).irq n 25, [])
  else if keyPage k = 2 then (realmReset s n, [])
  else if k = o10_MODE_REQUEST then (modeRequestDo s m (le b 0 1), [])
  else if k = o11_COUNTERS_CLEAR then (s.modBil m (fun x => { x with clear := true }), [])
  else if keyPage k = 0x12 then (overrunClearDo s m (i - 0x100), [])
  else if k = o14_LOAD_BEGIN then (loadBegin s m, [])
  else if k = o14_LOAD_ABORT then (abortLoad s m, [])
  else if k = o14_SWAP then (swapArm s m (le b 0 8), [])
  else if k = o14_SWAP_CANCEL then (disarm s m, [])
  else if k = o18_COUNT_CLEAR then (countClearDo s m, [])
  else if k = o18_MBIST_START then (mbistDo s m (le b 0 1), [])
  else if k = o18_ERR_INJECT then (errInjectDo s m (le b 0 1) (le b 1 4) (le b 5 4), [])
  else if k = o1A_POISON_CLEAR then (poisonClearDo s m, [])
  else if k = o1A_SAFE_ENTER then (enterSafe s m 1, [])
  else if k = o1A_SAFE_EXIT then (safeExitDo s m (partnerTook s m), [])
  else if ttlPage1A k then (tallyUnmuteDo s m (unmuteChan k), [])
  else if k = o22_PHASE_ADJUST then (phaseAdjustDo s m (signedOf 4 (le b 0 4)), [])
  else if k = o24_TIME_SET then (timeSetDo s m (le b 0 6) (le b 6 4), [])
  else if k = o30_TAKE then (takeDo s m, [])
  else if keyPage k = 0x66 then
    let (x, s) := lightQuery s m (le b 0 2) (le b 2 2)
    (s, toLe 4 (x.getD 0))
  else (s, [])

/-- What a refused operation leaves all the same: CONFIG_ERROR (09 R309), ERROR (11 R398), the event of a refused TAKE
(17 R577). -/
def refusedEffects (s : State) (m : RealmId) (o : Op) (code : Nat) : State :=
  let k := oidKey o.oid
  let i := keyIndex k
  let v := le (o.value .bool) 0 1
  if code = 0x16 ∧ (o.code = 2 ∨ o.code = 3) ∧ keyElem k = 0 then
    if keyPage k = 0x20 ∧ 0x100 ≤ i ∧ i < 0x110 then portRefused s m (i - 0x100) v
    else if keyPage k = 0x26 ∧ 0x100 ≤ i ∧ i < 0x140 then streamRefused s m false (i - 0x100) v
    else if keyPage k = 0x26 ∧ 0x300 ≤ i ∧ i < 0x340 then streamRefused s m true (i - 0x300) v
    else s
  else if code = 0x18 ∧ o.code = 6 ∧ k = o30_TAKE then takeRefused s m
  else s

/-! ## Admission (R436, R437) -/

def tokUnit (p0 : Bool) : Time := if p0 then us 250 else us 25
def tokDepth (p0 : Bool) : Nat := if p0 then 128 else 800

/-- The counters at this instant. -/
def countTokens (s : State) (m : RealmId) : State :=
  s.modBil m (fun b =>
    { b with tok0 := Nat.min (tokDepth true * tokUnit true) (b.tok0 + (s.now - b.tokAt)),
             tok1 := Nat.min (tokDepth false * tokUnit false) (b.tok1 + (s.now - b.tokAt)), tokAt := s.now })

def tokens (b : BilSt) (p0 : Bool) : Time := if p0 then b.tok0 else b.tok1

/-- Queue entries held: writes that wait for their frame, and those that wait for the partner. -/
def queued (b : BilSt) : Nat :=
  (b.effects.filter (fun e => !e.stamped)).length + (b.fwds.map (fun w => w.ops.length)).foldl (· + ·) 0

/-- The class of an operation that draws a token; reads and subscriptions draw from the P1 counter. -/
def tokenClass (o : Op) : Option Bool :=
  if o.code = 7 ∨ o.code = 8 ∨ o.code = 9 then none
  else if o.changes then some (((oidRow o.oid).map (·.p0)).getD false)
  else some false

/-- An operation is admitted and takes its token, or the retry-after in µs; `ops` are those of its message. -/
def admitOp (s : State) (a : Asker) (ops : List Op) (o : Op) : Except Nat State :=
  match (if a.hub then none else tokenClass o) with
  | none => .ok s
  | some p0 =>
    let b := (s.realm a.m).bil
    let unit := tokUnit p0
    if unit ≤ tokens b p0 then
      .ok (s.modBil a.m (fun b => if p0 then { b with tok0 := b.tok0 - unit } else { b with tok1 := b.tok1 - unit }))
    else if s.onat a.m o28_SHED_LEVEL < 4 ∧ queued b + 1 + 137 ≤ 1024 then .ok s
    else
      let need := Nat.max 1 (ops.filter (fun x => x.isWrite && tokenClass x == some p0)).length
      .error (retryUs (need * unit - tokens b p0))

/-! ## One operation -/

/-- How a message runs: who asks, the start frame of its unstamped writes, whether every unstamped write waits for that frame
(17 R564), and its operations. -/
structure Run where
  who   : Asker
  start : Nat
  later : Bool
  origin : Nat
  ops   : List Op
  deriving DecidableEq, Repr

def stagesOp (o : Op) : Bool := o.code == 2 && ((oidRow o.oid).map staged).getD false

/-- The frame at which a write is due, if it waits for one. -/
def dueFrame (r : Run) (row : ObjRow) (o : Op) : Option Nat :=
  if o.code = 3 then some o.frame
  else if staged row ∨ (r.later ∧ forwardedSet (oidKey o.oid)) then some r.start
  else none

/-- A write that waits for frame `f`. -/
def effectOf (s : State) (r : Run) (row : ObjRow) (o : Op) (f : Nat) : Effect :=
  let k := homeKey s r.who.m (oidKey o.oid)
  { key := k, value := newValue s r.who.m k row o, frame := f, ramp := o.rampTime, stamped := o.code == 3, rw := !staged row,
    p0 := row.p0, tiles := [], receipt := s.now, moved := false }

/-- The retry-after of a resource that is taken (order 12): a place for a frame-stamped write (R434), a ramp slot
(06 R218), a selector in a crossfade (06 R224). -/
def resourceBusy (s : State) (r : Run) (o : Op) : Option (Nat × Bool) :=
  match oidRow o.oid with
  | none => none
  | some row =>
    let m := r.who.m
    let k := homeKey s m (oidKey o.oid)
    if o.code ≠ 2 ∧ o.code ≠ 3 then none
    else
      let st := stampedPending s m
      if o.code = 3 ∧ 512 ≤ st.length then
        some (retryUs (untilFrame s m (st.foldl (fun a e => Nat.min a e.frame) o.frame)), false)
      else
        match dueFrame r row o with
        | none => none
        | some f =>
          if row.acc = .rwr ∧ row.p0 = false then (slotBusy s m k f).map (·, true)
          else if isSend k ∧ keyElem k = 3 then (slotBusy s m k f).map (·, true)
          else if row.sel then (selBusy s m (effectOf s r row o f)).map (·, true)
          else none

/-- An accepted write: at once, or kept until its frame. The ACK's frame and the state. -/
def writeDo (s : State) (r : Run) (row : ObjRow) (o : Op) : State × Nat :=
  let m := r.who.m
  let k := homeKey s m (oidKey o.oid)
  let v := newValue s m k row o
  match dueFrame r row o with
  | some f =>
    let s := s.modBil m (fun b => { b with effects := b.effects ++ [effectOf s r row o f] })
    let s := if staged row then holdFor s m k f o.rampTime row.p0 else s
    (s, if staged row ∨ o.code = 3 then f else noFrame)
  | none =>
    let (x, s) := s.draw
    let s := putObject s m k v
    (if r.who.hub then s else noteWorst s m row.p0 (x % (bound row.p0 + 1)), noFrame)

/-- SUB_ID values in use are passed over. -/
def freshSub (used : List Nat) : Nat → Nat → Nat
  | 0, c => c
  | n + 1, c => if used.contains c then freshSub used n (c % 65535 + 1) else c

/-- SUBSCRIBE: a CHANGE subscription starts from the values in effect. -/
def subscribeDo (s : State) (a : Asker) (o : Op) : State × Op :=
  let b := (s.realm a.m).bil
  let id := freshSub (b.subs.map (·.id)) 513 b.nextSub
  let kind := le o.body 0 1
  let span := le o.body 4 2
  let k := oidKey o.oid
  let vals := if kind = 0 then (List.range span).map (fun j => objBytes s a.m a.host (k + 16 * j) (((rowOf k).map (·.ty)).getD .cmd)) else []
  let u : Sub := { id := id, sess := a.sess, kind := kind, page := keyPage k, index := keyIndex k, elem := keyElem k, span := span,
                   rate := le o.body 2 2, cur := le o.body 2 2, sent := vals, lastAt := s.now, queue := [] }
  (s.modBil a.m (fun b => { b with subs := b.subs ++ [u], nextSub := id % 65535 + 1 }), resultOp o.oid (toLe 2 id))

/-- The RESULT of a READ. -/
def readDo (s : State) (a : Asker) (row : ObjRow) (o : Op) : Op :=
  let b := objBytes s a.m a.host (oidKey o.oid) row.ty
  match row.ty with
  | .blob _ => resultOp o.oid (toLe 2 o.start ++ toLe 2 o.count ++ slice b o.start o.count)
  | .arr _ => resultOp o.oid (toLe 2 o.start ++ toLe 2 o.count ++ slice b (4 * o.start) (4 * o.count))
  | _ => resultOp o.oid b

def acceptedCount (s : State) (a : Asker) (p0 : Bool) : State :=
  if a.hub then s else s.bump a.m (if p0 then o28_P0_ACCEPTED else o28_P1_ACCEPTED) 1

/-- An operation that is accepted: the state, its reply, and the key of a session that it opens. -/
def opDo (s : State) (r : Run) (o : Op) : State × Op × Option (List Byte) :=
  let a := r.who
  if o.code = 7 then openDo s a.m o r.origin
  else if o.code = 8 then (if a.host then s else closeSession s a.m a.sess, ackOp o.oid noFrame, none)
  else if o.code = 9 then
    let s := streamBytes s a.m (o.body.drop 4) true
    (s, ackOp (s.onat a.m o14_LOAD_BYTES) noFrame, none)
  else if o.code = 4 then
    let (s, x) := subscribeDo s a o
    (s, x, none)
  else if o.code = 5 then
    (s.modBil a.m (fun b => { b with subs := b.subs.filter (fun u => u.id != le o.body 0 2) }), ackOp o.oid noFrame, none)
  else
    match oidRow o.oid with
    | none => (s, errorOp o.oid 0x12 0, none)
    | some row =>
      if o.code = 1 then (s, readDo s a row o, none)
      else
        let s := acceptedCount s a row.p0
        let s := if a.fwd && forwardedSet (oidKey o.oid) then
            s.modPair a.m (fun p => { p with forwards := (p.forwards + 1) % 4294967296 }) else s
        if o.code = 6 then
          let (x, s) := s.draw
          let (s, res) := callDo s a.m (oidKey o.oid) o.body
          let s := if a.hub then s else noteWorst s a.m row.p0 (x % (bound row.p0 + 1))
          (s, if res = [] then ackOp o.oid noFrame else resultOp o.oid res, none)
        else
          let (s, f) := writeDo s r row o
          (s, ackOp o.oid f, none)

/-! ## The operations of a message (R422, R423) -/

/-- The outcome of one operation: accepted with its reply; an error; or BUSY, with RAMP_BUSY counted. -/
inductive Verdict where
  | ok (reply : Op) (key : Option (List Byte))
  | err (code : Nat)
  | busy (retry : Nat) (ramp : Bool)
  deriving DecidableEq, Repr

def Verdict.good (v : Verdict) : Bool :=
  match v with
  | .ok _ _ => true
  | _ => false

/-- Judge one operation against the state before the message, `s0`, and the admission and resources left in `s`. -/
def tryOp (s0 : State) (r : Run) (s : State) (o : Op) : Verdict × State :=
  match opErr s0 r.who o with
  | some c => (.err c, s)
  | none =>
    match admitOp s r.who r.ops o with
    | .error t => (.busy t false, s)
    | .ok s1 =>
      match resourceBusy s r o with
      | some (t, ramp) => (.busy t ramp, s)
      | none =>
        let (s2, x, key) := opDo s1 r o
        (.ok x key, s2)

def tryOps (s0 : State) (r : Run) : State → List Op → List Verdict × State
  | s, [] => ([], s)
  | s, o :: l =>
    let (v, s1) := tryOp s0 r s o
    let (vs, s2) := tryOps s0 r s1 l
    (v :: vs, s2)

/-- The reply to a STREAM carries the offset that the loader expects (R418). -/
def replyOid (s : State) (a : Asker) (o : Op) : Nat := if o.code = 9 ∧ a.hub = false then s.onat a.m o14_LOAD_BYTES else o.oid

def verdictReply (s : State) (a : Asker) (o : Op) (v : Verdict) : Op :=
  match v with
  | .ok x _ => x
  | .err c => errorOp (replyOid s a o) c 0
  | .busy t _ => busyOp (replyOid s a o) t

/-- Counters and what refused operations leave. -/
def noteRefused (s : State) (a : Asker) (o : Op) (v : Verdict) : State :=
  if a.hub then s
  else
    match v with
    | .ok _ _ => s
    | .err c => refusedEffects s a.m o c
    | .busy _ ramp =>
      let s := s.bump a.m o28_BUSY_SENT 1
      if ramp then s.bump a.m o5F_RAMP_BUSY 1 else s

/-- The reads of a message whose writes are not applied. -/
def readsOnly (r : Run) (s : State) : List (Op × Verdict) → List Op × State
  | [] => ([], s)
  | (o, v) :: l =>
    if o.isWrite then
      let s1 := noteRefused s r.who o v
      let x := if v.good then errorOp o.oid 0x1B 0 else verdictReply s r.who o v
      let (xs, s2) := readsOnly r s1 l
      (x :: xs, s2)
    else
      let (v', s1) := tryOp s r s o
      let s1 := noteRefused s1 r.who o v'
      let (xs, s2) := readsOnly r s1 l
      (verdictReply s1 r.who o v' :: xs, s2)

/-- Every write of the message is valid. -/
def allGood (ovs : List (Op × Verdict)) : Bool := ovs.all (fun x => !x.1.isWrite || x.2.good)

/-- What running a message gives: the replies, the state, the key of a session that was opened, and whether its writes were
accepted. -/
structure Ran where
  replies : List Op
  state   : State
  key     : Option (List Byte)
  good    : Bool

def openedKey (ovs : List (Op × Verdict)) : Option (List Byte) :=
  ovs.findSome? (fun x => match x.2 with | .ok _ k => k | _ => none)

/-- Run the operations. -/
def runOps (s : State) (r : Run) : Ran :=
  let s := if r.who.hub then s else countTokens s r.who.m
  let (vs, s') := tryOps s r s r.ops
  let ovs := r.ops.zip vs
  if allGood ovs then
    let s' := ovs.foldl (fun s x => noteRefused s r.who x.1 x.2) s'
    ⟨ovs.map (fun x => verdictReply s' r.who x.1 x.2), s', openedKey ovs, true⟩
  else
    let (l, s) := readsOnly r s ovs
    ⟨l, s, none, false⟩

/-- Run operations whose writes have been judged already (17 R565, R566). -/
def commitOps (r : Run) : State → List Op → List Op × State
  | s, [] => ([], s)
  | s, o :: l =>
    if o.isWrite then
      let (s1, x, _) := opDo s r o
      let (xs, s2) := commitOps r s1 l
      (x :: xs, s2)
    else
      let (v, s1) := tryOp s r s o
      let s1 := noteRefused s1 r.who o v
      let (xs, s2) := commitOps r s1 l
      (verdictReply s1 r.who o v :: xs, s2)

end Sys2Proof.Machine
end

