-- ==== Sys2Proof/Machine/Message.lean ====
section
/-!
DEFINITION. Biluno messages as a realm takes and answers them (12 R416, R419, R425, R428 to R432), mailboxes (15 R517,
R521, R522), the forwarding of an active realm (17 R564 to R566), notifications (12 R441, R443, R444), idle sessions
(R430) and shedding (R439).
MARKED CHOICES of this file (DESIGN CHOICE, DEDUCED or PRESUMED): log entries 54 to 58, 60, 62, 63, 65 and 66.
-/
namespace Sys2Proof.Machine

/-- The realm answers Biluno. -/
def served (s : State) (m : RealmId) : Bool := (s.realm m).mode != .dormant && (s.realm m).bus.keeper

/-! ## Sending -/

/-- Port, IPv4 address and UDP port of a network source. -/
def origPort (o : Nat) : Nat := o / 281474976710656
def origIp (o : Nat) : Nat := o / 65536 % 4294967296
def origUdp (o : Nat) : Nat := o % 65536

/-- A datagram from UDP port `bp`. -/
def netSendFrom (s : State) (m : RealmId) (bp origin : Nat) (d : List Byte) : State :=
  let p := origPort origin
  if p < 2 then sendMore s m (udpOut s m p (origIp origin) bp (origUdp origin) 64 0 d) else s

def netSend (s : State) (m : RealmId) (origin : Nat) (d : List Byte) : State := netSendFrom s m (s.onat m o28_BILUNO_PORT) origin d

/-- REPLY_WORST: the reply leaves within 1 ms (R432). -/
def noteReply (s : State) (m : RealmId) : State :=
  let (x, s) := s.draw
  s.oput m o28_REPLY_WORST ((Nat.max (s.onat m o28_REPLY_WORST) (x % 1000001) : Nat) : Int)

/-- Replies with the RESULTs that do not fit replaced (R425): `used` bytes are taken of `limit`. -/
def fitReplies (limit : Nat) : Nat → List Op → List Op
  | _, [] => []
  | used, o :: r =>
    let n := used + 8 + o.body.length
    if o.code = 0x81 ∧ limit < n + 16 * r.length then errorOp o.oid 0x20 0 :: fitReplies limit (used + 12) r
    else o :: fitReplies limit n r

def replyBytes (limit sess seq : Nat) (ops : List Op) (key : Option (List Byte)) : List Byte :=
  message flagReply sess seq (fitReplies (limit - (if key.isSome then 20 else 4)) 16 ops) key

def mailLimit : Nat := 1024
def netLimit : Nat := 1472

/-- The replies of an accepted message go to their source, from UDP port `bp`, and are kept for its session (R431). -/
def answerOps (s : State) (m : RealmId) (bp : Nat) (src : Source) (key : Option (List Byte)) (replies : List Op) : State :=
  let s := noteReply s m
  if src.single then s.modBil m (fun b => { b with reply := replies.flatMap opBytes })
  else
    match src.box with
    | some n => s.modBox n (fun b => { b with taken := some (replyBytes mailLimit src.sess src.seq replies none) })
    | none =>
      let d := replyBytes netLimit src.sess src.seq replies key
      let s := s.modSession m src.sess (fun x => { x with replies := ((src.seq, d) :: x.replies).take 16 })
      netSendFrom s m bp src.origin d

/-- A message is rejected whole. -/
def answerError (s : State) (m : RealmId) (src : Source) (key : Option (List Byte)) (code detail : Nat) : State :=
  let s := noteReply s m
  let d := message flagReply src.sess src.seq [errorOp 0 code detail] key
  match src.box with
  | some n => s.modBox n (fun b => { b with taken := some d })
  | none => netSend s m src.origin d

/-! ## Running a message -/

/-- The forwarding session of the partner (17 R564, R567). -/
def forwarding (s : State) (m : RealmId) (x : Session) : Bool :=
  x.slot == 7 && s.onat m o30_PARTNER_ADDRESS != 0 && origIp x.origin == s.onat m o30_PARTNER_ADDRESS

def hostAsker (m : RealmId) : Asker := ⟨m, false, hostSession, 4, true, false⟩
def hubAsker : Asker := ⟨0, true, hostSession, 4, true, false⟩
def askerOf (s : State) (m : RealmId) (sess : Nat) : Option Asker :=
  if sess = hostSession then some (hostAsker m)
  else if sess = 0 then some ⟨m, false, 0, 0, false, false⟩
  else (s.session m sess).map (fun x => ⟨m, false, x.id, x.role, false, forwarding s m x⟩)

def forwardOp (o : Op) : Bool := o.changes && decide (oidScope o.oid < 4) && forwardedSet (oidKey o.oid)

/-- An active realm forwards these operations (17 R563, R564). -/
def forwards (s : State) (a : Asker) (ops : List Op) : Bool :=
  (s.realm a.m).mode == .active && !a.fwd && ops.any forwardOp

/-- The start frame of the message's unstamped writes: 17 R564 when they are forwarded, else one that the Keeper chooses
within the tightest bound among them, at least 3 frames ahead (R423, R432; 06 R204). -/
def startFrame (s : State) (a : Asker) (fwd : Bool) (ops : List Op) : Nat × State :=
  let n := s.frameNo a.m
  if fwd then (n + (s.rate a.m * 6 + 9999) / 10000 + 1, s)
  else if ops.any stagesOp then
    let p0 := ops.any (fun o => o.code == 2 && ((oidRow o.oid).map (·.p0)).getD false)
    let (x, s) := s.draw
    (n + 3 + x % (boundFloor s a.m p0 - 2), s)
  else (n, s)

/-- The frame-stamped form in which a write is forwarded. -/
def stampOp (start : Nat) (o : Op) : Op := if o.code = 2 then { o with code := 3, body := toLe 8 start ++ o.body } else o

/-- Subscriptions of sessions that have closed meanwhile end. -/
def pruneSubs (s : State) (m : RealmId) : State :=
  s.modBil m (fun b => { b with subs := b.subs.filter (fun u => u.sess == hostSession || b.sessions.any (fun x => x.id == u.sess)) })

def stepLost (s : State) (m : RealmId) : State := s.modPair m (fun p => { p with stepLost := true, matched := 0 })

/-- Run the operations of an accepted message and answer it, at once or after the partner. -/
def runMessage (s : State) (src : Source) (a : Asker) (key : Option (List Byte)) (ops : List Op) : State :=
  let m := a.m
  let fw := forwards s a ops
  let (start, s) := startFrame s a fw ops
  let r : Run := ⟨a, start, fw, src.origin, ops⟩
  let x := runOps s r
  if fw && x.good && decide (partnerRole s m = some 2) then
    let out := (ops.filter forwardOp).map (fun o => (s.onat m o30_PARTNER_ADDRESS, opBytes (stampOp start o)))
    let b' := (x.state.realm m).bil
    let s := s.modBil m (fun b =>
      { b with tok0 := b'.tok0, tok1 := b'.tok1, tokAt := b'.tokAt, sent := b.sent ++ out,
               fwds := b.fwds ++ [⟨src, ops, start, s.now⟩] })
    s.modPair m (fun p => { p with forwards := (p.forwards + out.length) % 4294967296 })
  else
    let bp := s.onat m o28_BILUNO_PORT
    let s := if fw && x.good then stepLost x.state m else x.state
    pruneSubs (answerOps s m bp src (key.or x.key) x.replies) m

/-! ## The message checks (R419) -/

/-- Failures of CRC and tag are answered at most 100 times a second. -/
def failReply (s : State) (m : RealmId) (src : Source) (code counter : Nat) : State :=
  let s := s.bump m counter 1
  let now := s.now / sec 1
  let b := (s.realm m).bil
  let n := if b.failSecond = now then b.failCount else 0
  if n < 100 then
    answerError (s.modBil m (fun b => { b with failSecond := now, failCount := n + 1 })) m src none code 0
  else s

/-- Orders 7 to 10, and the message's operations. -/
def runChecked (s : State) (m : RealmId) (src : Source) (a : Asker) (key : Option (List Byte)) (maxOps : Nat) (d : List Byte) : State :=
  match checkInner d maxOps with
  | some (c, detail) => answerError s m src key c detail
  | none =>
    let s := s.modSession m a.sess (fun x => { x with high := src.seq, lastAt := s.now, origin := src.origin })
    let a' := if a.host then a else (askerOf s m a.sess).getD a
    runMessage s src a' key (opsOf d)

/-- Order 6 (R431). -/
def sequenced (s : State) (m : RealmId) (src : Source) (x : Session) (d : List Byte) : State :=
  let key := if x.tagged then some x.sk else none
  match x.replies.find? (fun r => r.1 == src.seq) with
  | some (_, r) =>
    netSend (noteReply (s.modSession m x.id (fun y => { y with lastAt := s.now, origin := src.origin })) m) m src.origin r
  | none =>
    if src.seq ≤ x.high then answerError s m src key 6 0
    else runChecked s m src ⟨m, false, x.id, x.role, false, false⟩ key 64 d

/-- Orders 4 and 5, for a message from the network. -/
def netMessage (s : State) (m : RealmId) (src : Source) (d : List Byte) : State :=
  let h := header d
  if src.sess = 0 ∧ h.tagged = false ∧ h.count = 1 ∧ le d 16 1 = 7 then
    runChecked s m src ⟨m, false, 0, 0, false, false⟩ none 64 d
  else
    match s.session m src.sess with
    | none => answerError s m src none 5 0
    | some x =>
      if h.tagged ≠ x.tagged then answerError s m src none 5 0
      else if x.tagged ∧ tagOk d x.sk = false then failReply s m src 4 o28_AUTH_FAILS
      else sequenced s m src x d

/-- A whole message arrives: from a network source, or from a mailbox (`box`); `got` bytes were received. -/
def takeMessage (s : State) (m : RealmId) (box : Option Nat) (origin : Nat) (d : List Byte) (got : Nat) : State :=
  let s := s.bump m o28_RX_MESSAGES 1
  let h := header d
  let src : Source := ⟨h.sess, h.seq, box, origin, false⟩
  if d.take 2 ≠ magic then s.bump m o28_MALFORMED_COUNT 1
  else if h.reply then
    (if h.notify ∧ h.sess = 0 ∧ box = none then beaconMessage s m (origIp origin) d else s.bump m o28_MALFORMED_COUNT 1)
  else
    match checkOuter d got (if box.isSome then mailLimit else netLimit) with
    | some (c, detail) => if c = 3 then failReply s m src 3 o28_CRC_ERRORS else answerError s m src none c detail
    | none =>
      if box.isSome then
        (if h.sess ≠ hostSession ∨ h.tagged then answerError s m src none 5 0
         else runChecked s m src (hostAsker m) none 62 d)
      else netMessage s m src d

def execRequestMessage (e : Ev) (origin : Nat) (bytes : List Byte) (s : State) : Result :=
  let s := s.at e.t
  let m := e.m
  if served s m then
    let s := takeUdp (clearSent (clearSent s m 0) m 1) m (origPort origin) bytes
    .next (takeMessage s m none origin bytes bytes.length)
  else .next s

/-! ## Mailboxes (15 R517, R521, R522) -/

/-- The message in BUFFER: LENGTH says how much of it; beyond its 1,024 bytes nothing has been received. -/
def boxMessage (b : Mailbox) : List Byte × Nat :=
  let len := le b.buffer 14 2
  let n := if 20 ≤ len ∧ len ≤ 1024 then len else 1024
  ((b.buffer ++ List.replicate (1024 - b.buffer.length) 0).take n, n)

/-- The whole reply replaces BUFFER in one step. -/
def placeReply (s : State) (n : Nat) (r : List Byte) : State :=
  let s := s.modBox n (fun b => { b with state := 2, buffer := r, length := r.length, taken := none })
  s.hirq (if n = 16 then 22 else 10 + n / 4)

/-- Place a reply that is there. -/
def placeTaken (s : State) (n : Nat) : State :=
  match (boxOf s.hub n).state, (boxOf s.hub n).taken with
  | 1, some r => if r = [] then s else placeReply s n r
  | _, _ => s

/-- The Keeper takes the request of a mailbox, once, carries it out and places the reply. -/
def execMailboxReply (t : Time) (box : Fin 17) (s : State) : Result :=
  let s := s.at t
  let n := box.val
  let m := boxRealm n
  let b := boxOf s.hub n
  if 16 ≤ n ∨ b.state ≠ 1 ∨ served s m = false then .next s
  else if b.taken.isSome then .next (placeTaken s n)
  else
    let (d, got) := boxMessage b
    let s := s.modBox n (fun b => { b with taken := some [] })
    .next (placeTaken (takeMessage s m (some n) 0 d got) n)

/-- The Host Hub's answer to a message in the device mailbox; none to one that is discarded. -/
def hubMessage (s : State) (d : List Byte) (got : Nat) : State × List Byte :=
  let h := header d
  let fail := fun (c detail : Nat) => (s, message flagReply h.sess h.seq [errorOp 0 c detail] none)
  if d.take 2 ≠ magic ∨ h.reply then (s, [])
  else
    match checkOuter d got mailLimit with
    | some (c, detail) => fail c detail
    | none =>
      if h.sess ≠ hostSession ∨ h.tagged then fail 5 0
      else
        match checkInner d 62 with
        | some (c, detail) => fail c detail
        | none =>
          let x := runOps s ⟨hubAsker, 0, false, 0, opsOf d⟩
          (x.state, replyBytes mailLimit h.sess h.seq x.replies none)

def execDeviceMailboxOperation (t : Time) (s : State) : Result :=
  let s := s.at t
  let b := boxOf s.hub 16
  if s.hub.ready = false ∨ b.state ≠ 1 ∨ b.taken.isSome then .next s
  else
    let (d, got) := boxMessage b
    let (s, r) := hubMessage (s.modBox 16 (fun b => { b with taken := some [] })) d got
    .next (if r = [] ∨ (boxOf s.hub 16).state ≠ 1 then s else placeReply s 16 r)

/-! ## The partner's answers (17 R565, R566) -/

/-- A reply operation of the partner, as the verdict on the write that was forwarded. -/
def partnerVerdict (p : Op) : Verdict :=
  if p.code = 0x83 then .err (le p.body 0 2) else if p.code = 0x82 then .busy (le p.body 0 4) false else .ok p none

/-- The partner's replies, in the order of the forwarded operations; the others stand as valid. -/
def partnerVerdicts : List Op → List Op → List (Op × Verdict)
  | [], _ => []
  | o :: r, ps =>
    if forwardOp o then
      match ps with
      | p :: q => (o, partnerVerdict p) :: partnerVerdicts r q
      | [] => (o, .ok (ackOp o.oid noFrame) none) :: partnerVerdicts r []
    else (o, .ok (ackOp o.oid noFrame) none) :: partnerVerdicts r ps

/-- The first message that waits is answered: its writes are accepted, or refused as the partner refused them. -/
def finishFwd (s : State) (m : RealmId) (w : Fwd) (refused : Option (List Op)) : State :=
  let s := s.modBil m (fun b => { b with fwds := b.fwds.drop 1 })
  match askerOf s m w.src.sess with
  | none => s
  | some a =>
    let r : Run := ⟨a, w.frame, true, w.src.origin, w.ops⟩
    let key := (s.session m w.src.sess).bind (fun x => if x.tagged then some x.sk else none)
    let bp := s.onat m o28_BILUNO_PORT
    let (l, s) := match refused with
      | none => commitOps r s w.ops
      | some ps => readsOnly r s (partnerVerdicts w.ops ps)
    pruneSubs (answerOps s m bp w.src key l) m

/-- The partner's reply operations to the first message that waits, all of them. -/
def execForwardReply (e : Ev) (replies : List Byte) (s : State) : Result :=
  let s := (s.at e.t)
  let m := e.m
  let s := clearSent (clearSent s m 0) m 1
  match served s m, (s.realm m).bil.fwds with
  | true, w :: _ =>
    match parseOps replies replies.length (w.ops.filter forwardOp).length 0 with
    | (ps, none) =>
      .next (finishFwd s m w (if ps.all (fun p => p.code == 0x80 || p.code == 0x81) then none else some ps))
    | _ => .next s
  | _, _ => .next s

/-- 400 µs without all answers, or no standby beacon within BEACON_TIMEOUT. -/
def execForwardTimeout (e : Ev) (s : State) : Result :=
  let s := (s.at e.t)
  let m := e.m
  let s := clearSent (clearSent s m 0) m 1
  match served s m, (s.realm m).bil.fwds with
  | true, w :: _ =>
    if w.at0 + us 400 ≤ s.now ∨ partnerRole s m ≠ some 2 then .next (finishFwd (stepLost s m) m w none) else .next s
  | _, _ => .next s

/-! ## Frame-stamped writes to RW and WO objects (R434) -/

def execStampedWriteDue (e : Ev) (s : State) : Result :=
  let s := s.at e.t
  let m := e.m
  let n := s.frameNo m
  let due := fun (x : Effect) => x.rw && !x.moved && decide (x.frame ≤ n)
  if served s m then
    let es := effectOrder ((s.realm m).bil.effects.filter due)
    let s := s.modBil m (fun b => { b with effects := b.effects.filter (fun x => !due x) })
    .next (es.foldl (fun s x =>
      let s := putObject s m x.key x.value
      if x.stamped then s else noteWorst s m x.p0 (s.now - x.receipt)) s)
  else .next s

/-! ## Idle sessions (R430) -/

def execSessionTimeout (e : Ev) (sid : Nat) (s : State) : Result :=
  let s := s.at e.t
  let m := e.m
  .next (closeWhere s m (fun x => x.id == sid && decide (x.lastAt + sec (s.onat m o28_SESSION_TIMEOUT) ≤ s.now)))

/-! ## Shedding (R439) -/

/-- The rate of a METER subscription at a level: halved down to 10 Hz from level 2 on, restored below it. -/
def meterRate (level : Nat) (u : Sub) : Sub :=
  if u.kind ≠ 1 then u
  else if 2 ≤ level then { u with cur := Nat.max 10 (u.cur / 2) }
  else { u with cur := Nat.min u.rate (2 * u.cur) }

/-- The end of a 10 ms window with a busy fraction in %. -/
def execShedWindow (e : Ev) (busy : Nat) (s : State) : Result :=
  let s := s.at e.t
  let m := e.m
  if served s m then
    let s := s.oput m o2A_KEEPER_BUSY ((Nat.min busy 100 : Nat) : Int)
    let old := s.onat m o28_SHED_LEVEL
    let calm := if busy < 60 then (s.realm m).bil.calm + 1 else 0
    let level := if 90 < busy then Nat.min 4 (old + 1) else if 10 ≤ calm then old - 1 else old
    let s := s.modBil m (fun b => { b with calm := if 10 ≤ calm then 0 else calm })
    let s := if level = old then s else (s.oput m o28_SHED_LEVEL (level : Nat)).raise m 0x2802 o28_SHED_LEVEL
    let s := if old = 3 ∧ level = 2 then
        s.modBil m (fun b => { b with subs := b.subs.map (fun u => if u.kind = 0 then { u with sent := [] } else u) }) else s
    .next (if (s.realm m).bil.shedAt + ms 100 ≤ s.now then
        s.modBil m (fun b => { b with shedAt := s.now, subs := b.subs.map (meterRate level) }) else s)
  else .next s

/-! ## Notifications (R441, R443, R444; 15 R521) -/

/-- Operations packed into messages: those of the message being filled and its bytes; an operation larger than a message is left
out. -/
def packOps (room maxOps : Nat) : List Op → List Op → Nat → List (List Op)
  | [], cur, _ => if cur = [] then [] else [cur]
  | o :: r, cur, used =>
    let n := 8 + o.body.length
    if room < n then packOps room maxOps r cur used
    else if used + n ≤ room ∧ cur.length < maxOps then packOps room maxOps r (cur ++ [o]) (used + n)
    else cur :: packOps room maxOps r [o] n

/-- A METER notification still waiting is replaced by its successor, which leaves a gap in the count. -/
def replaceMeter (s : State) (m : RealmId) (meter : Nat) : State :=
  if meter = 0 then s
  else s.modBil m (fun b =>
    { b with hostSeq := b.hostSeq + (b.hostQ.filter (fun x => x.meter == meter)).length,
             hostQ := b.hostQ.filter (fun x => x.meter != meter) })

/-- Notifications of a P0 event go ahead of every other. -/
def queueNote (q : List HostNote) (x : HostNote) : List HostNote :=
  if x.p0 then q.takeWhile (·.p0) ++ [x] ++ q.dropWhile (·.p0) else q ++ [x]

def notifyNet (s : State) (m : RealmId) (x : Session) (ops : List Op) : State :=
  match s.session m x.id with
  | none => s
  | some x =>
    let d := message (flagReply + flagNotify) x.id ((x.notifySeq + 1) % 4294967296) ops (if x.tagged then some x.sk else none)
    netSend (s.modSession m x.id (fun y => { y with notifySeq := y.notifySeq + 1 })) m x.origin d

def notify (s : State) (m : RealmId) (u : Sub) (p0 : Bool) (ops : List Op) : State :=
  if u.sess = hostSession then
    let meter := if u.kind = 1 then u.id else 0
    (packOps 1004 62 ops [] 0).foldl (fun s l => s.modBil m (fun b => { b with hostQ := queueNote b.hostQ ⟨meter, p0, l⟩ }))
      (replaceMeter s m meter)
  else
    match s.session m u.sess with
    | none => s
    | some x => (packOps (if x.tagged then 1436 else 1452) 64 ops [] 0).foldl (fun s l => notifyNet s m x l) s

def subOf (s : State) (m : RealmId) (id : Nat) : Option Sub := (s.realm m).bil.subs.find? (fun u => u.id == id)

def modSub (s : State) (m : RealmId) (id : Nat) (f : Sub → Sub) : State :=
  s.modBil m (fun b => { b with subs := b.subs.map (fun u => if u.id = id then f u else u) })

/-- The objects of a subscription: their keys, and the values in effect. -/
def subKeys (u : Sub) : List Nat := (List.range u.span).map (fun j => okey u.page (u.index + j) u.elem)

def subVals (s : State) (m : RealmId) (u : Sub) : List (List Byte) :=
  (subKeys u).map (fun k => objBytes s m (u.sess == hostSession) k (((rowOf k).map (·.ty)).getD .cmd))

def subOid (m : RealmId) (u : Sub) (k : Nat) : Nat := if u.page < 0x10 then 15 * 268435456 + k else oidOf m k

/-- A notification of the host session that is not an event of P0 waits while another one does. -/
def hostWaits (s : State) (m : RealmId) (u : Sub) : Bool := u.sess == hostSession && !(s.realm m).bil.hostQ.isEmpty

def execChangeNotify (e : Ev) (sub : Nat) (s : State) : Result :=
  let s := s.at e.t
  let m := e.m
  let s := clearSent (clearSent s m 0) m 1
  match served s m, subOf s m sub with
  | true, some u =>
    if u.kind ≠ 0 ∨ 3 ≤ s.onat m o28_SHED_LEVEL ∨ s.now < u.lastAt + ms 10 ∨ hostWaits s m u then .next s
    else
      let vals := subVals s m u
      let ops := ((subKeys u).zip (vals.mapIdx (fun j v => (v, u.sent.getD j []))) |>.filter (fun x => x.2.1 != x.2.2)).map
        (fun x => notifyOp (subOid m u x.1) x.2.1)
      if ops = [] then .next s
      else .next (modSub (notify s m u false ops) m sub (fun u => { u with sent := vals, lastAt := s.now }))
  | _, _ => .next s

def execMeterNotify (e : Ev) (sub : Nat) (s : State) : Result :=
  let s := s.at e.t
  let m := e.m
  let s := clearSent (clearSent s m 0) m 1
  match served s m, subOf s m sub with
  | true, some u =>
    if u.kind ≠ 1 ∨ s.now < u.lastAt + sec 1 / u.cur then .next s
    else
      let ops := ((subKeys u).zip (subVals s m u)).map (fun x => notifyOp (subOid m u x.1) x.2)
      .next (modSub (notify s m u false ops) m sub (fun u => { u with lastAt := s.now }))
  | _, _ => .next s

/-- The record that an EVENTS subscription sends next: the oldest of P0, else the oldest. -/
def nextRecord (q : List EventRec) : Option EventRec := (q.find? (·.p0)).or q.head?

def execEventNotify (e : Ev) (sub : Nat) (s : State) : Result :=
  let s := s.at e.t
  let m := e.m
  let s := clearSent (clearSent s m 0) m 1
  match served s m, subOf s m sub with
  | true, some u =>
    match nextRecord u.queue with
    | some x =>
      if u.kind ≠ 2 ∨ (x.p0 = false ∧ (3 ≤ s.onat m o28_SHED_LEVEL ∨ hostWaits s m u)) then .next s
      else .next (modSub (notify s m u x.p0 [notifyOp 0 (eventBytes x)]) m sub (fun u => { u with queue := u.queue.erase x }))
    | none => .next s
  | _, _ => .next s

/-- The next notification of the host session goes into mailbox 3. -/
def execNotifyPlaced (e : Ev) (s : State) : Result :=
  let s := s.at e.t
  let m := e.m
  let n := 4 * m.val + 3
  let b := boxOf s.hub n
  match served s m && s.hub.ready && (b.state == 0 || b.state == 3), (s.realm m).bil.hostQ with
  | true, x :: _ =>
    let q := (s.realm m).bil.hostSeq + 1
    let d := message (flagReply + flagNotify) hostSession (q % 4294967296) x.ops none
    let s := s.modBil m (fun b => { b with hostSeq := q, hostQ := b.hostQ.drop 1 })
    let s := s.modBox n (fun b => { b with state := 2, seq := q % 65536, buffer := d, length := d.length, taken := none })
    .next (s.hirq (14 + m.val))
  | _, _ => .next s

end Sys2Proof.Machine
end

