-- ==== Sys2Proof/Machine/Requests.lean ====
section
/-!
DEFINITION. The commands that are one Biluno operation: the sole operation of a message of their session that has
passed its checks, judged and carried out as in a message.
MARKED CHOICES of this file (DESIGN CHOICE, DEDUCED or PRESUMED): log entries 67 and 68.
-/
namespace Sys2Proof.Machine

def hubScope : Nat := 15 * 268435456

/-- The object ID of a name: in the realm's scope, or in DEV for its pages. -/
def objOid (m : RealmId) (o : ObjId) : Nat :=
  let k := okey (o.page % 256) (o.index % 65536) (o.elem % 16)
  if o.page % 256 < 0x10 then hubScope + k else oidOf m k

/-- The sole operation of a message runs; its reply operation stands in `reply`. -/
def request (q : Req) (origin : Nat) (o : Op) (s : State) : Result :=
  let s := s.at q.t
  let m := q.m
  if served s m = false then .next s
  else
    let s := clearSent (clearSent s m 0) m 1
    let fail := fun (c : Nat) => s.modBil m (fun b => { b with reply := opBytes (errorOp 0 c 0) })
    match askerOf s m q.sess with
    | none => .next (fail 5)
    | some a =>
      if q.sess = 0 ∧ o.code ≠ 7 then .next (fail 5)
      else if countBad o then .next (fail 8)
      else if bodyBad o then .next (fail 1)
      else
        let s := s.modSession m q.sess (fun x => { x with lastAt := s.now })
        .next (runMessage s ⟨q.sess, 0, none, origin, true⟩ a none [o])

/-- An operation on a DEV object through the device mailbox. -/
def hubRequest (t : Time) (o : Op) (s : State) : Result :=
  let s := s.at t
  if s.hub.ready = false then .next s
  else
    let x := runOps s ⟨hubAsker, 0, false, 0, [o]⟩
    .next (x.state.modHub (fun h => { h with reply := x.replies.flatMap opBytes }))

/-- REALM_START, REALM_STOP and REALM_RESET: by the host through the device mailbox, or by a session of the realm. -/
def devRequest (q : Req) (o : Op) (s : State) : Result :=
  if q.sess = hostSession then hubRequest q.t o s else request q 0 o s

def callOp (m : RealmId) (k : Nat) (b : List Byte) : Op := ⟨6, 0, if keyPage k < 0x10 then hubScope + k else oidOf m k, b⟩

/-- A WRITE of a value, with its own ramp time where one is given; data of a BLOB start at byte 0. -/
def valueOp (code : Nat) (pre : List Byte) (oid : Nat) (v : List Byte) (ramp : Option Nat) : Op :=
  let sized := ((oidRow oid).map (fun r => isSized r.ty)).getD false
  ⟨code, if ramp.isSome then 1 else 0, oid,
    pre ++ (match ramp with | some t => toLe 4 t | none => []) ++ (if sized then toLe 2 0 ++ toLe 2 v.length else []) ++ v⟩

def writeOp (m : RealmId) (o : ObjId) (v : List Byte) (ramp : Option Nat) : Op := valueOp 2 [] (objOid m o) v ramp

/-! ## Operations with an object of their own -/

def execRead (q : Req) (obj : ObjId) (start : Nat) (count : Nat) (s : State) : Result :=
  request q 0 ⟨1, 0, objOid q.m obj, toLe 2 start ++ toLe 2 count⟩ s

def execWrite (q : Req) (obj : ObjId) (v : List Byte) (ramp : Option Nat) (s : State) : Result :=
  request q 0 (writeOp q.m obj v ramp) s

/-- A ramp in the code domain (06 R214). -/
def execGainChange (q : Req) (obj : ObjId) (v : List Byte) (ramp : Option Nat) (s : State) : Result :=
  request q 0 (writeOp q.m obj v ramp) s

/-- Two complementary amplitude ramps (06 R219). -/
def execSendTapWrite (q : Req) (obj : ObjId) (v : List Byte) (s : State) : Result :=
  request q 0 (writeOp q.m obj v none) s

/-- A route crossfade (06 R221). -/
def execSelectorWrite (q : Req) (obj : ObjId) (v : List Byte) (s : State) : Result :=
  request q 0 (writeOp q.m obj v none) s

/-- A write of KEY or KEY_ROLE (R427). -/
def execKeyWrite (q : Req) (obj : ObjId) (v : List Byte) (s : State) : Result :=
  request q 0 (writeOp q.m obj v none) s

def execWriteAt (q : Req) (obj : ObjId) (frame : Nat) (v : List Byte) (ramp : Option Nat) (s : State) : Result :=
  request q 0 (valueOp 3 (toLe 8 frame) (objOid q.m obj) v ramp) s

def execSubscribe (q : Req) (obj : ObjId) (kind : Nat) (rate : Nat) (span : Nat) (s : State) : Result :=
  let oid := if kind = 2 ∧ obj = ⟨0, 0, 0⟩ then 0 else objOid q.m obj
  request q 0 ⟨4, 0, oid, toLe 1 kind ++ [0] ++ toLe 2 rate ++ toLe 2 span ++ [0, 0]⟩ s

def execUnsubscribe (q : Req) (id : Nat) (s : State) : Result := request q 0 ⟨5, 0, 0, toLe 2 id⟩ s

def execOpen (q : Req) (slot : Nat) (nonce : List Byte) (origin : Nat) (s : State) : Result :=
  request q origin ⟨7, 0, 0, toLe 1 slot ++ [0, 0, 0] ++ nonce⟩ s

def execClose (q : Req) (s : State) : Result := request q 0 ⟨8, 0, 0, []⟩ s

def execStream (q : Req) (offset : Nat) (data : List Byte) (s : State) : Result :=
  request q 0 ⟨9, 0, 0, toLe 4 offset ++ data⟩ s

/-! ## Writes of one object -/

def execPowerStateWrite (q : Req) (bank : Nat) (v : Nat) (s : State) : Result :=
  request q 0 (writeOp q.m ⟨0x18, 0x100 + bank, 6⟩ (toLe 1 v) none) s

def execPortEnable (q : Req) (p : Nat) (v : Nat) (s : State) : Result :=
  request q 0 (writeOp q.m ⟨0x20, 0x100 + p, 0⟩ (toLe 1 v) none) s

def execMutePinEnableWrite (q : Req) (v : Nat) (s : State) : Result :=
  request q 0 (writeOp q.m ⟨0x20, 0, 2⟩ (toLe 1 v) none) s

def execSampleRateWrite (q : Req) (v : Nat) (s : State) : Result :=
  request q 0 (writeOp q.m ⟨0x22, 0, 0⟩ (toLe 1 v) none) s

def execRefPathWrite (q : Req) (v : Nat) (s : State) : Result :=
  request q 0 (writeOp q.m ⟨0x22, 0, 1⟩ (toLe 1 v) none) s

def execTickOffsetWrite (q : Req) (v : Int) (s : State) : Result :=
  request q 0 (writeOp q.m ⟨0x22, 0x200, 0⟩ (wireMod 4 v) none) s

def execAuxEnableWrite (q : Req) (a : Nat) (v : Nat) (s : State) : Result :=
  request q 0 (writeOp q.m ⟨0x22, 0x400 + a, 0⟩ (toLe 1 v) none) s

def execLinkEnableWrite (q : Req) (p : Nat) (v : Nat) (s : State) : Result :=
  request q 0 (writeOp q.m ⟨0x24, 0x100 + p, 0⟩ (toLe 1 v) none) s

def execPtpProfileWrite (q : Req) (v : Nat) (s : State) : Result :=
  request q 0 (writeOp q.m ⟨0x24, 0, 1⟩ (toLe 1 v) none) s

def execNetBanksWrite (q : Req) (v : Nat) (s : State) : Result :=
  request q 0 (writeOp q.m ⟨0x24, 1, 14⟩ (toLe 1 v) none) s

def execStreamEnable (q : Req) (tx : Bool) (sidx : Nat) (v : Nat) (s : State) : Result :=
  request q 0 (writeOp q.m ⟨0x26, (if tx then 0x300 else 0x100) + sidx, 0⟩ (toLe 1 v) none) s

def execBilunoPortWrite (q : Req) (v : Nat) (s : State) : Result :=
  request q 0 (writeOp q.m ⟨0x28, 0, 0⟩ (toLe 2 v) none) s

def execFixedRequestWrite (q : Req) (v : Nat) (s : State) : Result :=
  request q 0 (writeOp q.m ⟨0x12, 0xB, 0⟩ (toLe 2 v) none) s

def execPairModeWrite (q : Req) (v : Nat) (s : State) : Result :=
  request q 0 (writeOp q.m ⟨0x30, 0, 0⟩ (toLe 1 v) none) s

/-! ## Commands of a realm -/

def execLoadBegin (q : Req) (s : State) : Result := request q 0 (callOp q.m o14_LOAD_BEGIN []) s
def execLoadAbort (q : Req) (s : State) : Result := request q 0 (callOp q.m o14_LOAD_ABORT []) s
def execSwap (q : Req) (frame : Nat) (s : State) : Result := request q 0 (callOp q.m o14_SWAP (toLe 8 frame)) s
def execSwapCancel (q : Req) (s : State) : Result := request q 0 (callOp q.m o14_SWAP_CANCEL []) s
def execMbistStart (q : Req) (mask : Nat) (s : State) : Result := request q 0 (callOp q.m o18_MBIST_START (toLe 1 mask)) s
def execErrInject (q : Req) (bank : Nat) (vec : Nat) (syms : Nat) (s : State) : Result :=
  request q 0 (callOp q.m o18_ERR_INJECT (toLe 1 bank ++ toLe 4 vec ++ toLe 4 syms)) s
def execCountClear (q : Req) (s : State) : Result := request q 0 (callOp q.m o18_COUNT_CLEAR []) s
def execPoisonClear (q : Req) (s : State) : Result := request q 0 (callOp q.m o1A_POISON_CLEAR []) s
def execTallyUnmute (q : Req) (chan : Nat) (s : State) : Result :=
  request q 0 ⟨6, 0, objOid q.m ⟨0x1A, 0x1000 + chan, 2⟩, []⟩ s
def execSafeEnter (q : Req) (s : State) : Result := request q 0 (callOp q.m o1A_SAFE_ENTER []) s
def execSafeExit (q : Req) (s : State) : Result := request q 0 (callOp q.m o1A_SAFE_EXIT []) s
def execOverrunClear (q : Req) (tile : TileId) (s : State) : Result :=
  request q 0 (callOp q.m (o12_OVERRUN_CLEAR + 16 * tile.val) []) s
def execPhaseAdjust (q : Req) (v : Int) (s : State) : Result := request q 0 (callOp q.m o22_PHASE_ADJUST (wireMod 4 v)) s
def execTimeSet (q : Req) (seconds : Nat) (nanos : Nat) (s : State) : Result :=
  request q 0 (callOp q.m o24_TIME_SET (toLe 6 seconds ++ toLe 4 nanos)) s
def execLlQuery (q : Req) (src : Nat) (dst : Nat) (s : State) : Result :=
  request q 0 (callOp q.m (okey 0x66 1 0) (toLe 2 src ++ toLe 2 dst)) s
def execCountersClear (q : Req) (s : State) : Result := request q 0 (callOp q.m o11_COUNTERS_CLEAR []) s
def execModeRequest (q : Req) (v : Nat) (s : State) : Result := request q 0 (callOp q.m o10_MODE_REQUEST (toLe 1 v)) s
def execTake (q : Req) (s : State) : Result := request q 0 (callOp q.m o30_TAKE []) s

/-! ## Commands of the device -/

def execRealmStart (q : Req) (s : State) : Result := devRequest q (callOp q.m (o02_REALM_START + 16 * q.m.val) []) s
def execRealmStop (q : Req) (s : State) : Result := devRequest q (callOp q.m (o02_REALM_STOP + 16 * q.m.val) []) s
def execRealmReset (q : Req) (s : State) : Result := devRequest q (callOp q.m (o02_REALM_RESET + 16 * q.m.val) []) s
def execDevModeRequest (t : Time) (v : Nat) (s : State) : Result := hubRequest t (callOp 0 o02_DEV_MODE_REQUEST (toLe 1 v)) s
def execKeyHashBurn (t : Time) (hash : List Byte) (s : State) : Result := hubRequest t (callOp 0 o01_KEY_HASH_BURN hash) s
def execIdentityProve (t : Time) (challenge : List Byte) (s : State) : Result :=
  hubRequest t (callOp 0 o01_IDENTITY_PROVE challenge) s

end Sys2Proof.Machine
end

