-- ==== Sys2Proof/Machine/TileMem.lean ====
section
/-!
DEFINITION. The loads and stores of a tile (04 R132 to R138, R145, R155 to R158; 03 R75, R76, R95, R606; 02 R62; 05 R178,
R179): X and Y memory, exchange memory through port F, deep memory through the slot table.
MARKED CHOICES of this file (DESIGN CHOICE, DEDUCED or PRESUMED): log entries 26 and 30.
-/
namespace Sys2Proof.Machine

/-- The post-modify of an operand issues with latency 1 (04 R139). -/
def issuePost (x : Tile) (sl : Slot) (sd : Side) (ad : AddrF) : Tile :=
  match postMod x.regs sd ad with
  | some a => x.send sl 1 (.addr sd ad.a a)
  | none => x

/-- A broadcast places the addressed word and its residue in all four lanes (04 R137). -/
def broadcast (v : Vec) (a : Nat) : Vec := Quad.all (v.get (fin4 a))

/-- A load's result issues: the destination after the latency, the address register after one step. -/
def issueLoad (s : State) (m : RealmId) (k : Nat) (sl : Slot) (sd : Side) (f : LdF) (lat : Nat) (v : Vec) : State :=
  s.modTile m k (fun x => issuePost (x.send sl lat (.v (physV x.regs.rot f.d) 0xF v)) sl sd f.ad)

/-- A load from a bank of the tile: X memory is bank `k`, Y memory bank 0x10 + `k`. -/
def loadOwn (e : TEv) (f : LdF) (sl : Slot) (sd : Side) (bank : Nat) (bc : Bool) (s : State) : Result :=
  tileOp e sl s (fun s =>
    let a := wordAddr (s.tile e.m e.k).regs sd f.ad 15
    let (v, s) := tileLoad s e.m e.k bank (a / 4)
    issueLoad s e.m e.k sl sd f 2 (if bc then broadcast v a else v))

def execLdx (e : TEv) (f : LdF) (s : State) : Result := loadOwn e f .x .x e.k.val false s
def execLdxB (e : TEv) (f : LdF) (s : State) : Result := loadOwn e f .x .x e.k.val true s
def execLdy (e : TEv) (f : LdF) (s : State) : Result := loadOwn e f .y .y (0x10 + e.k.val) false s
def execLdyB (e : TEv) (f : LdF) (s : State) : Result := loadOwn e f .y .y (0x10 + e.k.val) true s

/-! ## Exchange memory -/

/-- The physical vector that a load of `vec` returns (03 R606). MODEL'S CHOICE (log entry 26): a tile that is not in READERS of a
NEXT entry reads the same half. -/
def exchLoadVec (f : FrameSt) (x : Tile) (vec : Nat) : Nat :=
  match exchEntry (tileImg f x) vec with
  | some en =>
    if en.cls = 2 then vec + (x.kf + 1) % 2
    else if en.cls = 5 then vec + tget 0 f.keeperHalf vec
    else vec
  | none => vec

/-- A load through port F (04 R138). -/
def loadExch (e : TEv) (f : LdF) (bc : Bool) (s : State) : Result :=
  tileOp e .x s (fun s =>
    let x := s.tile e.m e.k
    let a := wordAddr x.regs .x f.ad 17
    let (v, s) := tileLoad s e.m e.k 0x80 (exchLoadVec (s.frame e.m) x (a / 4))
    issueLoad s e.m e.k .x .x f 4 (if bc then broadcast v a else v))

def execLdxE (e : TEv) (f : LdF) (s : State) : Result := loadExch e f false s
def execLdxEB (e : TEv) (f : LdF) (s : State) : Result := loadExch e f true s

/-- The words a store writes: poisoned in a tile whose program was damaged (07 R253). -/
def storeWords (x : Tile) (src : VReg) : Vec :=
  let v := srcV x.regs src
  if storesPoison x then v.map (fun l => ⟨l.data, poisonRes⟩) else v

/-- A store that writes `d` at the end of the step, with the post-modify of its operand (04 R145). -/
def issueStore (s : State) (m : RealmId) (k : Nat) (sd : Side) (ad : AddrF) (d : Dst) : State :=
  s.modTile m k (fun x => issuePost (x.send .s 1 d) .s sd ad)

/-- A store that writes nothing still applies its post-modify. -/
def issueNoStore (s : State) (m : RealmId) (k : Nat) (sd : Side) (ad : AddrF) : State :=
  s.modTile m k (fun x => issuePost x .s sd ad)

def execStx (e : TEv) (f : StF) (s : State) : Result :=
  tileOp e .s s (fun s =>
    let x := s.tile e.m e.k
    issueStore s e.m e.k .x f.ad (.memX (wordAddr x.regs .x f.ad 15 / 4) (storeWords x f.s)))

def execSty (e : TEv) (f : StF) (s : State) : Result :=
  tileOp e .s s (fun s =>
    let x := s.tile e.m e.k
    issueStore s e.m e.k .y f.ad (.memY (wordAddr x.regs .y f.ad 15 / 4) (storeWords x f.s)))

/-- What becomes of an exchange store (03 R76, R95; 02 R62; 03 R606). -/
inductive StoreOut where
  | store (phys : Nat)
  | violation
  | late
  deriving DecidableEq, Repr

def exchStore (f : FrameSt) (x : Tile) (k vec : Nat) : StoreOut :=
  match exchEntry (tileImg f x) vec with
  | none => .violation
  | some e =>
    if e.writer ≠ k ∨ e.cls = 0 ∨ e.cls = 5 then .violation
    else if e.cls = 4 then (if ctxSlack x.ctx then .store vec else .violation)
    else if ctxFore x.ctx then
      if e.cls = 1 then (if pastDeadline f x.frame then .late else .store vec)
      else if e.cls = 2 then .store (vec + x.kf % 2)
      else .store vec
    else .violation

def execSte (e : TEv) (f : StF) (s : State) : Result :=
  tileOp e .s s (fun s =>
    let x := s.tile e.m e.k
    let vec := wordAddr x.regs .x f.ad 17 / 4
    match exchStore (s.frame e.m) x e.k vec with
    | .store p =>
      issueStore s e.m e.k .x f.ad (.memE p (storeWords x f.s))
    | .violation =>
      let s := s.bump e.m (o14_EXCH_VIOLATION + 16 * e.k.val) 1
      let s := s.irq e.m 23
      let s := s.raiseOnce e.m 0x1406 (o14_EXCH_VIOLATION + 16 * e.k.val) e.k (sec 1)
      issueNoStore s e.m e.k .x f.ad
    | .late =>
      issueNoStore (s.bump e.m (o12_LATE_WRITES + 16 * e.k.val) 1) e.m e.k .x f.ad)

/-! ## Deep memory -/

/-- The bank and vector of a deep word address (07 R246). -/
def deepBank (a : Nat) : Nat := a / 65536
def deepVec (a : Nat) : Nat := a % 65536 / 4

/-- A slot of the tile for its context holds the vector (04 R156, R158). -/
def slotAllows (img : List Byte) (x : Tile) (k : Nat) (a : Nat) (wr : Bool) : Bool :=
  (deepSlots img).any (fun d =>
    d.bank == deepBank a && d.tile == k && (!wr || d.write == 1)
      && (d.cls == 2 || (d.cls == 0 && ctxFore x.ctx) || (d.cls == 1 && ctxSlack x.ctx))
      && decide (d.start ≤ deepVec a * 16) && decide (deepVec a * 16 + 16 ≤ d.start + d.len))

def deepViolation (s : State) (m : RealmId) (k : Nat) : State :=
  let s := s.bump m (o16_DEEP_VIOLATION + 16 * k) 1
  let s := s.irq m 23
  s.raiseOnce m 0x1601 (o16_DEEP_VIOLATION + 16 * k) k (sec 1)

/-- A tile access to a bank that is not ON (07 R267). -/
def powerFault (s : State) (m : RealmId) (bank : Nat) : State :=
  s.bump m (o18_POWER_FAULTS + 16 * (0x40 + bank)) 1

/-- The vector that `LDY.D` returns: zero outside the tile's slots and from a bank that is not ON. -/
def deepLoad (s : State) (m : RealmId) (k a : Nat) : Vec × State :=
  if slotAllows (tileImg (s.frame m) (s.tile m k)) (s.tile m k) k a false then
    if (s.realm m).deepOn (deepBank a) then tileLoad s m k (0x40 + deepBank a) (deepVec a)
    else (zeroVec, powerFault s m (deepBank a))
  else (zeroVec, deepViolation s m k)

def execLdyD (e : TEv) (f : LdF) (s : State) : Result :=
  tileOp e .y s (fun s =>
    let a := wordAddr (s.tile e.m e.k).regs .y f.ad 22
    let (v, s) := deepLoad s e.m e.k a
    issueLoad s e.m e.k .y .y f 16 v)

def execStd (e : TEv) (f : StF) (s : State) : Result :=
  tileOp e .s s (fun s =>
    let x := s.tile e.m e.k
    let a := wordAddr x.regs .y f.ad 22
    if slotAllows (tileImg (s.frame e.m) x) x e.k a true then
      if (s.realm e.m).deepOn (deepBank a) then
        issueStore s e.m e.k .y f.ad (.memD (deepBank a) (deepVec a) (storeWords x f.s))
      else issueNoStore (powerFault s e.m (deepBank a)) e.m e.k .y f.ad
    else issueNoStore (deepViolation s e.m e.k) e.m e.k .y f.ad)

end Sys2Proof.Machine
end

