-- ==== Sys2Proof/Machine/Dispatch.lean ====
section
/-!
DEFINITION. The dispatch: one arm per command, each one call of its meaning.
-/
namespace Sys2Proof.Machine

def exec (i : Instr) (s : State) : Host.Outcome State Fault Refusal :=
  match i with
  | .frameTick e => Sys2Proof.Machine.execFrameTick e s
  | .foregroundStart e => Sys2Proof.Machine.execForegroundStart e s
  | .deadline e => Sys2Proof.Machine.execDeadline e s
  | .nop e slot bits => Sys2Proof.Machine.execNop e slot bits s
  | .mul e f => Sys2Proof.Machine.execMul e f s
  | .mac e f => Sys2Proof.Machine.execMac e f s
  | .msu e f => Sys2Proof.Machine.execMsu e f s
  | .add e f => Sys2Proof.Machine.execAdd e f s
  | .sub e f => Sys2Proof.Machine.execSub e f s
  | .min e f => Sys2Proof.Machine.execMin e f s
  | .max e f => Sys2Proof.Machine.execMax e f s
  | .abs e f => Sys2Proof.Machine.execAbs e f s
  | .sel e f => Sys2Proof.Machine.execSel e f s
  | .clip e f => Sys2Proof.Machine.execClip e f s
  | .cmp e f => Sys2Proof.Machine.execCmp e f s
  | .log2 e f => Sys2Proof.Machine.execLog2 e f s
  | .exp2 e f => Sys2Proof.Machine.execExp2 e f s
  | .rcp e f => Sys2Proof.Machine.execRcp e f s
  | .ldx e f => Sys2Proof.Machine.execLdx e f s
  | .ldxB e f => Sys2Proof.Machine.execLdxB e f s
  | .ldxE e f => Sys2Proof.Machine.execLdxE e f s
  | .ldxEB e f => Sys2Proof.Machine.execLdxEB e f s
  | .ldy e f => Sys2Proof.Machine.execLdy e f s
  | .ldyB e f => Sys2Proof.Machine.execLdyB e f s
  | .ldyD e f => Sys2Proof.Machine.execLdyD e f s
  | .stx e f => Sys2Proof.Machine.execStx e f s
  | .sty e f => Sys2Proof.Machine.execSty e f s
  | .ste e f => Sys2Proof.Machine.execSte e f s
  | .std e f => Sys2Proof.Machine.execStd e f s
  | .mova e f => Sys2Proof.Machine.execMova e f s
  | .movv e f => Sys2Proof.Machine.execMovv e f s
  | .movvS e f => Sys2Proof.Machine.execMovvS e f s
  | .movsR e f => Sys2Proof.Machine.execMovsR e f s
  | .movsW e f => Sys2Proof.Machine.execMovsW e f s
  | .loop e f => Sys2Proof.Machine.execLoop e f s
  | .loopRegister e f => Sys2Proof.Machine.execLoopRegister e f s
  | .endl e => Sys2Proof.Machine.execEndl e s
  | .bar e b => Sys2Proof.Machine.execBar e b s
  | .amod e f => Sys2Proof.Machine.execAmod e f s
  | .setscl e f => Sys2Proof.Machine.execSetscl e f s
  | .yield e => Sys2Proof.Machine.execYield e s
  | .halt e => Sys2Proof.Machine.execHalt e s
  | .operationResult e => Sys2Proof.Machine.execOperationResult e s
  | .barrierRelease e b => Sys2Proof.Machine.execBarrierRelease e b s
  | .replicaFailed e r => Sys2Proof.Machine.execReplicaFailed e r s
  | .governorSample e samples temp => Sys2Proof.Machine.execGovernorSample e samples temp s
  | .marginExhaustedClear e => Sys2Proof.Machine.execMarginExhaustedClear e s
  | .characterisationSweep e => Sys2Proof.Machine.execCharacterisationSweep e s
  | .sweepEnd e points => Sys2Proof.Machine.execSweepEnd e points s
  | .avsVoutWrite t ok => Sys2Proof.Machine.execAvsVoutWrite t ok s
  | .avsStatusRead t ok fault => Sys2Proof.Machine.execAvsStatusRead t ok fault s
  | .streamWindowWrite e master data be => Sys2Proof.Machine.execStreamWindowWrite e master data be s
  | .loadVerify e => Sys2Proof.Machine.execLoadVerify e s
  | .truncated e => Sys2Proof.Machine.execTruncated e s
  | .loadBegin q => Sys2Proof.Machine.execLoadBegin q s
  | .loadAbort q => Sys2Proof.Machine.execLoadAbort q s
  | .swap q frame => Sys2Proof.Machine.execSwap q frame s
  | .swapCancel q => Sys2Proof.Machine.execSwapCancel q s
  | .swapTakeEffect e => Sys2Proof.Machine.execSwapTakeEffect e s
  | .stagedRecordWrite e tile => Sys2Proof.Machine.execStagedRecordWrite e tile s
  | .stampRewrite e => Sys2Proof.Machine.execStampRewrite e s
  | .busRead e master addr beats => Sys2Proof.Machine.execBusRead e master addr beats s
  | .busWrite e master addr vecs => Sys2Proof.Machine.execBusWrite e master addr vecs s
  | .narrowWrite e master addr data be => Sys2Proof.Machine.execNarrowWrite e master addr data be s
  | .atomicAdd e master addr lanes operand => Sys2Proof.Machine.execAtomicAdd e master addr lanes operand s
  | .atomicAddS e master addr lanes operand => Sys2Proof.Machine.execAtomicAddS e master addr lanes operand s
  | .atomicSwap e master addr lanes operand => Sys2Proof.Machine.execAtomicSwap e master addr lanes operand s
  | .scrubRead e => Sys2Proof.Machine.execScrubRead e s
  | .mbistStart q mask => Sys2Proof.Machine.execMbistStart q mask s
  | .mbistDone e fails => Sys2Proof.Machine.execMbistDone e fails s
  | .errInject q bank vec syms => Sys2Proof.Machine.execErrInject q bank vec syms s
  | .countClear q => Sys2Proof.Machine.execCountClear q s
  | .powerStateWrite q bank v => Sys2Proof.Machine.execPowerStateWrite q bank v s
  | .deepBankTransition e bank => Sys2Proof.Machine.execDeepBankTransition e bank s
  | .poisonClear q => Sys2Proof.Machine.execPoisonClear q s
  | .poisonClearDone e => Sys2Proof.Machine.execPoisonClearDone e s
  | .tallyUnmute q chan => Sys2Proof.Machine.execTallyUnmute q chan s
  | .safeEnter q => Sys2Proof.Machine.execSafeEnter q s
  | .safeExit q => Sys2Proof.Machine.execSafeExit q s
  | .overrunClear q tile => Sys2Proof.Machine.execOverrunClear q tile s
  | .fadeEnd e => Sys2Proof.Machine.execFadeEnd e s
  | .tdmInputFrame e f => Sys2Proof.Machine.execTdmInputFrame e f s
  | .tdmOutputFrame e edge => Sys2Proof.Machine.execTdmOutputFrame e edge s
  | .portEnable q p v => Sys2Proof.Machine.execPortEnable q p v s
  | .startFramesDone e => Sys2Proof.Machine.execStartFramesDone e s
  | .requalified e => Sys2Proof.Machine.execRequalified e s
  | .stopFramesDone e => Sys2Proof.Machine.execStopFramesDone e s
  | .invalidLimitReached e => Sys2Proof.Machine.execInvalidLimitReached e s
  | .rateMeasuredUpdate e rate => Sys2Proof.Machine.execRateMeasuredUpdate e rate s
  | .missingEdgeTimeout e => Sys2Proof.Machine.execMissingEdgeTimeout e s
  | .bclkReturn e => Sys2Proof.Machine.execBclkReturn e s
  | .rejoin e => Sys2Proof.Machine.execRejoin e s
  | .mutePin e low => Sys2Proof.Machine.execMutePin e low s
  | .muteRelease e => Sys2Proof.Machine.execMuteRelease e s
  | .mutePinEnableWrite q v => Sys2Proof.Machine.execMutePinEnableWrite q v s
  | .sampleRateWrite q v => Sys2Proof.Machine.execSampleRateWrite q v s
  | .lockWindowEnd e count => Sys2Proof.Machine.execLockWindowEnd e count s
  | .cycleSlip e => Sys2Proof.Machine.execCycleSlip e s
  | .glideStep e => Sys2Proof.Machine.execGlideStep e s
  | .relockSettleDone e => Sys2Proof.Machine.execRelockSettleDone e s
  | .acquisitionTimeout e => Sys2Proof.Machine.execAcquisitionTimeout e s
  | .refPathWrite q v => Sys2Proof.Machine.execRefPathWrite q v s
  | .candidatePulse e c interval err => Sys2Proof.Machine.execCandidatePulse e c interval err s
  | .candidateLoss e c => Sys2Proof.Machine.execCandidateLoss e c s
  | .candidateQualified e c => Sys2Proof.Machine.execCandidateQualified e c s
  | .candOffsetUpdate e offsets => Sys2Proof.Machine.execCandOffsetUpdate e offsets s
  | .refLocked e => Sys2Proof.Machine.execRefLocked e s
  | .tickOffsetWrite q v => Sys2Proof.Machine.execTickOffsetWrite q v s
  | .phaseAdjust q v => Sys2Proof.Machine.execPhaseAdjust q v s
  | .ppsOutPulse e => Sys2Proof.Machine.execPpsOutPulse e s
  | .auxEnableWrite q a v => Sys2Proof.Machine.execAuxEnableWrite q a v s
  | .linkUp e => Sys2Proof.Machine.execLinkUp e s
  | .linkDown e => Sys2Proof.Machine.execLinkDown e s
  | .linkEnableWrite q p v => Sys2Proof.Machine.execLinkEnableWrite q p v s
  | .moduleIdRead e ack bytes => Sys2Proof.Machine.execModuleIdRead e ack bytes s
  | .moduleDiagRead e ack bytes => Sys2Proof.Machine.execModuleDiagRead e ack bytes s
  | .rxFrame e bytes => Sys2Proof.Machine.execRxFrame e bytes s
  | .arpMessage e bytes => Sys2Proof.Machine.execArpMessage e bytes s
  | .arpRetry e ip => Sys2Proof.Machine.execArpRetry e ip s
  | .icmpEcho e bytes => Sys2Proof.Machine.execIcmpEcho e bytes s
  | .igmpQuery e => Sys2Proof.Machine.execIgmpQuery e s
  | .ptpEventMessage e bytes => Sys2Proof.Machine.execPtpEventMessage e bytes s
  | .announce e bytes => Sys2Proof.Machine.execAnnounce e bytes s
  | .announceTimeout e => Sys2Proof.Machine.execAnnounceTimeout e s
  | .ptpMessageTransmit e kind => Sys2Proof.Machine.execPtpMessageTransmit e kind s
  | .timebaseSecond e => Sys2Proof.Machine.execTimebaseSecond e s
  | .ppsInEdge e => Sys2Proof.Machine.execPpsInEdge e s
  | .timeSet q seconds nanos => Sys2Proof.Machine.execTimeSet q seconds nanos s
  | .ptpProfileWrite q v => Sys2Proof.Machine.execPtpProfileWrite q v s
  | .packetDeparture e => Sys2Proof.Machine.execPacketDeparture e s
  | .streamEnable q tx sidx v => Sys2Proof.Machine.execStreamEnable q tx sidx v s
  | .netBanksWrite q v => Sys2Proof.Machine.execNetBanksWrite q v s
  | .read q obj start count => Sys2Proof.Machine.execRead q obj start count s
  | .write q obj v ramp => Sys2Proof.Machine.execWrite q obj v ramp s
  | .gainChange q obj v ramp => Sys2Proof.Machine.execGainChange q obj v ramp s
  | .sendTapWrite q obj v => Sys2Proof.Machine.execSendTapWrite q obj v s
  | .selectorWrite q obj v => Sys2Proof.Machine.execSelectorWrite q obj v s
  | .writeAt q obj frame v ramp => Sys2Proof.Machine.execWriteAt q obj frame v ramp s
  | .stampedWriteDue e => Sys2Proof.Machine.execStampedWriteDue e s
  | .subscribe q obj kind rate span => Sys2Proof.Machine.execSubscribe q obj kind rate span s
  | .unsubscribe q id => Sys2Proof.Machine.execUnsubscribe q id s
  | .opOpen q slot nonce origin => Sys2Proof.Machine.execOpen q slot nonce origin s
  | .close q => Sys2Proof.Machine.execClose q s
  | .stream q offset data => Sys2Proof.Machine.execStream q offset data s
  | .forwardReply e replies => Sys2Proof.Machine.execForwardReply e replies s
  | .forwardTimeout e => Sys2Proof.Machine.execForwardTimeout e s
  | .sessionTimeout e sid => Sys2Proof.Machine.execSessionTimeout e sid s
  | .shedWindow e busy => Sys2Proof.Machine.execShedWindow e busy s
  | .changeNotify e sub => Sys2Proof.Machine.execChangeNotify e sub s
  | .meterNotify e sub => Sys2Proof.Machine.execMeterNotify e sub s
  | .eventNotify e sub => Sys2Proof.Machine.execEventNotify e sub s
  | .keyWrite q obj v => Sys2Proof.Machine.execKeyWrite q obj v s
  | .bilunoPortWrite q v => Sys2Proof.Machine.execBilunoPortWrite q v s
  | .fixedRequestWrite q v => Sys2Proof.Machine.execFixedRequestWrite q v s
  | .llQuery q src dst => Sys2Proof.Machine.execLlQuery q src dst s
  | .countersClear q => Sys2Proof.Machine.execCountersClear q s
  | .modeRequest q v => Sys2Proof.Machine.execModeRequest q v s
  | .realmModeChange e => Sys2Proof.Machine.execRealmModeChange e s
  | .realmStart q => Sys2Proof.Machine.execRealmStart q s
  | .realmStop q => Sys2Proof.Machine.execRealmStop q s
  | .realmStopComplete e => Sys2Proof.Machine.execRealmStopComplete e s
  | .realmReset q => Sys2Proof.Machine.execRealmReset q s
  | .keeperReady e => Sys2Proof.Machine.execKeeperReady e s
  | .kcPatchApply e master v => Sys2Proof.Machine.execKcPatchApply e master v s
  | .patchCheckDone e => Sys2Proof.Machine.execPatchCheckDone e s
  | .watchdogExpiry e => Sys2Proof.Machine.execWatchdogExpiry e s
  | .sectorWrite e master n reg v => Sys2Proof.Machine.execSectorWrite e master n reg v s
  | .registerWrite e master addr v => Sys2Proof.Machine.execRegisterWrite e master addr v s
  | .busQosAgeing e => Sys2Proof.Machine.execBusQosAgeing e s
  | .busWatch e => Sys2Proof.Machine.execBusWatch e s
  | .masterResetComplete e master => Sys2Proof.Machine.execMasterResetComplete e master s
  | .icVecRead e => Sys2Proof.Machine.execIcVecRead e s
  | .icEoiWrite e v => Sys2Proof.Machine.execIcEoiWrite e v s
  | .icRaiseWrite e v => Sys2Proof.Machine.execIcRaiseWrite e v s
  | .xspiRead t op addr ctl clocked => Sys2Proof.Machine.execXspiRead t op addr ctl clocked s
  | .xspiWrite t op addr ctl data => Sys2Proof.Machine.execXspiWrite t op addr ctl data s
  | .readStatus t => Sys2Proof.Machine.execReadStatus t s
  | .readId t => Sys2Proof.Machine.execReadId t s
  | .postedWriteDrain e => Sys2Proof.Machine.execPostedWriteDrain e s
  | .apertureTimeout e => Sys2Proof.Machine.execApertureTimeout e s
  | .octalSwitch t v => Sys2Proof.Machine.execOctalSwitch t v s
  | .mbBufferWrite t box off data => Sys2Proof.Machine.execMbBufferWrite t box off data s
  | .mbDoorbell t box seq => Sys2Proof.Machine.execMbDoorbell t box seq s
  | .resultRead t box off len => Sys2Proof.Machine.execResultRead t box off len s
  | .mailboxReply t box => Sys2Proof.Machine.execMailboxReply t box s
  | .notifyPlaced e => Sys2Proof.Machine.execNotifyPlaced e s
  | .deviceMailboxOperation t => Sys2Proof.Machine.execDeviceMailboxOperation t s
  | .hhIvecRead t => Sys2Proof.Machine.execHhIvecRead t s
  | .hhEoiWrite t v => Sys2Proof.Machine.execHhEoiWrite t v s
  | .devCopyRefresh t => Sys2Proof.Machine.execDevCopyRefresh t s
  | .hsRstN t => Sys2Proof.Machine.execHsRstN t s
  | .hubReady t => Sys2Proof.Machine.execHubReady t s
  | .wakeQualified t src => Sys2Proof.Machine.execWakeQualified t src s
  | .aonTimerExpiry t => Sys2Proof.Machine.execAonTimerExpiry t s
  | .vcoreGoodWake t => Sys2Proof.Machine.execVcoreGoodWake t s
  | .devModeRequest t v => Sys2Proof.Machine.execDevModeRequest t v s
  | .powerDownStart t => Sys2Proof.Machine.execPowerDownStart t s
  | .powerDownStep t => Sys2Proof.Machine.execPowerDownStep t s
  | .railGood t rail => Sys2Proof.Machine.execRailGood t rail s
  | .powerUpStep t => Sys2Proof.Machine.execPowerUpStep t s
  | .railTimeout t rail => Sys2Proof.Machine.execRailTimeout t rail s
  | .supplyFault t rail => Sys2Proof.Machine.execSupplyFault t rail s
  | .powerOnReset t => Sys2Proof.Machine.execPowerOnReset t s
  | .vaonRemoved t => Sys2Proof.Machine.execVaonRemoved t s
  | .keyHashBurn t hash => Sys2Proof.Machine.execKeyHashBurn t hash s
  | .identityProve t challenge => Sys2Proof.Machine.execIdentityProve t challenge s
  | .pairModeWrite q v => Sys2Proof.Machine.execPairModeWrite q v s
  | .beaconSend e => Sys2Proof.Machine.execBeaconSend e s
  | .beaconReceived e src bytes => Sys2Proof.Machine.execBeaconReceived e src bytes s
  | .partnerLost e => Sys2Proof.Machine.execPartnerLost e s
  | .take q => Sys2Proof.Machine.execTake q s
  | .pairTakeEdge e width => Sys2Proof.Machine.execPairTakeEdge e width s
  | .takeoverBegin e => Sys2Proof.Machine.execTakeoverBegin e s
  | .takeoverDone e => Sys2Proof.Machine.execTakeoverDone e s
  | .refereeTakeRepeat e => Sys2Proof.Machine.execRefereeTakeRepeat e s
  | .arpCacheAgeing e ip => Sys2Proof.Machine.execArpCacheAgeing e ip s
  | .fuseBurnComplete t readBack => Sys2Proof.Machine.execFuseBurnComplete t readBack s
  | .resetInitialisationDone e => Sys2Proof.Machine.execResetInitialisationDone e s
  | .jtagInstruction t code => Sys2Proof.Machine.execJtagInstruction t code s
  | .requestMessage e origin bytes => Sys2Proof.Machine.execRequestMessage e origin bytes s

end Sys2Proof.Machine
end

