-- ==== Sys2Proof/Safety.lean ====
section
/-!
DEFINITION. The terms in which claims are made: what it means that a command is carried out, what a command leaves alone,
and the invariants of the block.
-/
namespace Sys2Proof.Machine

/-- The command answers a next state of which `P` holds. -/
def Answers (c : Instr) (s : State) (P : State → Prop) : Prop := ∃ t, exec c s = .next t ∧ P t

/-! ## Frames -/

/-- Every object of the realm outside `ks` reads as before. -/
def ObjsBut (m : RealmId) (ks : List Nat) (s t : State) : Prop := ∀ j, j ∉ ks → t.oget m j = s.oget m j

/-- Every stored symbol of the realm reads as before, but those from address `lo` to `hi` − 1. -/
def MemBut (m : RealmId) (lo hi : Nat) (s t : State) : Prop :=
  ∀ a, a < lo ∨ hi ≤ a → rdSym (t.mem m) a = rdSym (s.mem m) a

/-- Of the device, only realm `m` and its memories change. -/
def OnlyRealm (m : RealmId) (s t : State) : Prop :=
  t.hub = s.hub ∧ t.pending = s.pending ∧ ∀ j, j ≠ m → t.realm j = s.realm j ∧ t.mem j = s.mem j

/-- As `OnlyRealm`, but host interrupts and the mirror of READY may follow what the realm does. -/
def RealmAlone (m : RealmId) (s t : State) : Prop :=
  t.hub = { s.hub with ipend := t.hub.ipend, mirror := t.hub.mirror } ∧ t.pending = s.pending
    ∧ ∀ j, j ≠ m → t.realm j = s.realm j ∧ t.mem j = s.mem j

/-- No realm and no memory changes. -/
def RealmsKept (s t : State) : Prop := t.pending = s.pending ∧ t.mems = s.mems ∧ ∀ j, t.realm j = s.realm j

/-- The realm as `r`, but for objects, pending interrupts, READY, events and rate limits of `t`. -/
def realmAs (r : Realm) (t : Realm) : Realm :=
  { r with objs := t.objs, bus := { r.bus with pend := t.bus.pend }, gates := t.gates, ready := t.ready,
           bil := { r.bil with log := t.bil.log, subs := t.bil.subs } }

/-- Realm `m` becomes as `r`, with objects in `ks` changed and perhaps interrupts and events raised; the rest of the device,
every memory included, stays. -/
def Becomes (m : RealmId) (ks : List Nat) (r : Realm) (s t : State) : Prop :=
  RealmAlone m s t ∧ t.mems = s.mems ∧ ObjsBut m ks s t ∧ t.realm m = realmAs r (t.realm m)

/-- Objects that raising an event changes. -/
def eventKeys : List Nat := [o11_EVENT_NEXT, o28_EVENTS_LOST]

/-- Objects that follow a change of READY, with its event. -/
def readyKeys : List Nat := [o10_READY, o10_READY_AT] ++ eventKeys

/-- The event with a code and a source has been written into EVENT_LOG as the next record (13 R452). -/
def Raised (m : RealmId) (code src : Nat) (s t : State) : Prop :=
  let x := tget EventRec.zero (t.realm m).bil.log (s.onat m o11_EVENT_NEXT % 256)
  x.code = code ∧ x.src = srcId m src ∧ t.onat m o11_EVENT_NEXT = (s.onat m o11_EVENT_NEXT + 1) % 4294967296

/-- Objects that reading a stored vector of a bank may change. -/
def readKeys (bank : Nat) : List Nat :=
  [o18_CE_COUNT + 16 * bank, o18_UE_COUNT + 16 * bank, o18_LAST_ERROR + 16 * bank] ++ eventKeys

/-! ## Tiles -/

/-- The tile issues an operation of slot `sl` of its word: it runs, the slot has not issued its operation yet, and the word's fetch
met no uncorrectable error. -/
def Issues (e : TEv) (sl : Slot) (s : State) : Prop :=
  ctxRuns (s.tile e.m e.k).ctx = true
    ∧ (if (s.tile e.m e.k).opened then (s.tile e.m e.k).dead = false ∧ sl ∉ (s.tile e.m e.k).used
       else (getVec (s.mem e.m) (progBank (s.tile e.m e.k) e.k) (s.tile e.m e.k).pc).2 ≠ .uncorrectable)

/-- The tile after an operation of slot `sl` of its current word has issued with these results in flight: no register has
changed. -/
def wordTile (x : Tile) (sl : Slot) (fl : List Flight) : Tile :=
  { x with opened := true, dead := false, used := sl :: (if x.opened then x.used else []),
           nextPc := if x.opened then x.nextPc else x.pc + 1, flight := fl }

/-- A result that joins those in flight. -/
def joins (x : Tile) (sl : Slot) (lat : Nat) (d : Dst) (fl : List Flight) : List Flight :=
  insFlight ⟨lat, x.issued, slotRank sl, d⟩ fl

/-- The post-modify of a memory operand joins the results in flight, with latency 1 (04 R139). -/
def joinsPost (x : Tile) (sl : Slot) (sd : Side) (ad : AddrF) (fl : List Flight) : List Flight :=
  match postMod x.regs sd ad with
  | some a => joins x sl 1 (.addr sd ad.a a) fl
  | none => fl

/-- What a tile's command leaves alone: every other realm and tile, and of its own realm all but objects, error counts,
events and interrupts; of the Host Hub all but pending interrupts. -/
def TileAlone (m : RealmId) (k : Nat) (s t : State) : Prop :=
  t.pending = s.pending ∧ t.free = s.free ∧ t.hub = { s.hub with ipend := t.hub.ipend }
    ∧ (∀ j, j ≠ m → t.realm j = s.realm j ∧ t.mem j = s.mem j)
    ∧ (∀ i, i ≠ k → t.tile m i = s.tile m i)
    ∧ t.realm m = { s.realm m with objs := (t.realm m).objs, tiles := (t.realm m).tiles,
                                   memory := { (s.realm m).memory with ceRate := (t.realm m).memory.ceRate,
                                                                       ceInterval := (t.realm m).memory.ceInterval,
                                                                       ceRaised := (t.realm m).memory.ceRaised },
                                   bus := { (s.realm m).bus with pend := (t.realm m).bus.pend },
                                   bil := { (s.realm m).bil with log := (t.realm m).bil.log, subs := (t.realm m).bil.subs },
                                   gates := (t.realm m).gates }

/-- Objects that fetching the tile's word may change. -/
def fetchKeys (s : State) (m : RealmId) (k : TileId) : List Nat := readKeys (progBank (s.tile m k) k)

/-- An operation issues and leaves the tile as `y`: memory is unchanged, and so is every object outside `ks` and the
accounting of the fetch. -/
def Issued (e : TEv) (ks : List Nat) (y : Tile) (s t : State) : Prop :=
  TileAlone e.m e.k s t ∧ t.mem e.m = s.mem e.m ∧ ObjsBut e.m (ks ++ fetchKeys s e.m e.k) s t ∧ t.tile e.m e.k = y

/-- One result joins those in flight, and nothing else happens but counts in `ks`. -/
def Sends (e : TEv) (sl : Slot) (lat : Nat) (d : Dst) (ks : List Nat) (s t : State) : Prop :=
  Issued e ks (wordTile (s.tile e.m e.k) sl (joins (s.tile e.m e.k) sl lat d (s.tile e.m e.k).flight)) s t

/-- A result for the V register that an instruction names, its lanes as `P` says. -/
def SendsV (e : TEv) (sl : Slot) (lat : Nat) (d : VReg) (mask : BitVec 4) (ks : List Nat) (P : LaneId → Lane → Prop)
    (s t : State) : Prop :=
  ∃ w : Vec, (∀ i, P i (w.get i)) ∧ Sends e sl lat (.v (physV (s.tile e.m e.k).regs.rot d) mask w) ks s t

/-- The slot issues nothing. -/
def SendsNone (e : TEv) (sl : Slot) (ks : List Nat) (s t : State) : Prop :=
  Issued e ks (wordTile (s.tile e.m e.k) sl (s.tile e.m e.k).flight) s t

/-- A store issues: a result for memory and the post-modify of its operand. -/
def SendsStore (e : TEv) (sd : Side) (ad : AddrF) (d : Dst) (ks : List Nat) (s t : State) : Prop :=
  let x := s.tile e.m e.k
  Issued e ks (wordTile x .s (joinsPost x .s sd ad (joins x .s 1 d x.flight))) s t

/-- A store that writes nothing: the post-modify alone. -/
def SendsNoStore (e : TEv) (sd : Side) (ad : AddrF) (ks : List Nat) (s t : State) : Prop :=
  Issued e ks (wordTile (s.tile e.m e.k) .s (joinsPost (s.tile e.m e.k) .s sd ad (s.tile e.m e.k).flight)) s t

/-- A load issues: the vector `v` after `lat` steps, and the post-modify of its operand; `ks` counts. -/
def LoadTile (e : TEv) (sl : Slot) (sd : Side) (f : LdF) (lat : Nat) (v : Vec) (s : State) : Tile :=
  let x := s.tile e.m e.k
  wordTile x sl (joinsPost x sl sd f.ad (joins x sl lat (.v (physV x.regs.rot f.d) 0xF v) x.flight))

/-- A load delivers the vector that the code of a stored vector gives; an uncorrectable vector is written back poisoned, and
memory is unchanged otherwise (07 R252). A vector that the realm bus has accessed in this step is delivered as it stood before
(04 R133; 07 R248). -/
def Loads (e : TEv) (sl : Slot) (sd : Side) (f : LdF) (lat bank vec : Nat) (g : Vec → Vec) (s t : State) : Prop :=
  let o := getVec (s.mem e.m) bank vec
  TileAlone e.m e.k s t ∧ ObjsBut e.m (readKeys bank ++ fetchKeys s e.m e.k) s t
    ∧ match (s.tile e.m e.k).portB.find? (fun p => p.bank == bank && p.vec == vec) with
      | some p => t.mem e.m = s.mem e.m ∧ t.tile e.m e.k = LoadTile e sl sd f lat (g p.old) s
      | none => t.mem e.m = (if o.2 = .uncorrectable then putVec (s.mem e.m) bank vec o.1 else s.mem e.m)
          ∧ t.tile e.m e.k = LoadTile e sl sd f lat (g o.1) s

/-- A result lane: the word with a residue generated from it where every check passes, else a poisoned lane
(08 R277, R282). -/
def LaneIs (ok : Bool) (w : BitVec 32) (l : Lane) : Prop := if ok then l = mkLane w else l.res = poisonRes
def AccLaneIs (ok : Bool) (w : BitVec 80) (l : AccLane) : Prop := if ok then l = mkAcc w else l.res = poisonRes

/-- A lane of a V register as the instruction reads it. -/
def vlane (s : State) (e : TEv) (n : VReg) (i : LaneId) : Lane := (srcV (s.tile e.m e.k).regs n).get i
def vint (s : State) (e : TEv) (n : VReg) (i : LaneId) : Int := (vlane s e n i).data.toInt
def vok (s : State) (e : TEv) (n : VReg) (i : LaneId) : Bool := laneOk (vlane s e n i)

def satKey (k : TileId) : Nat := o16_SATURATIONS + 16 * k.val
def tallyKey (k : TileId) : Nat := o1A_TALLY_TILE + 16 * k.val
/-- Counters of an operation that computes lanes. -/
def aluKeys (k : TileId) : List Nat := [satKey k, tallyKey k]

/-- A word of a sum: limited, or modulo 2^32. -/
def sumWord (sat : Bool) (v : Int) : BitVec 32 := BitVec.ofInt 32 (if sat then limit32 v else v)

/-- Lanes of which a condition holds. -/
def laneCount (p : LaneId → Bool) : Nat := (([0, 1, 2, 3] : List LaneId).filter p).length

/-- A counter that stops at 0xFFFF_FFFF has counted `n` (13 R453). -/
def Counted (m : RealmId) (key n : Nat) (s t : State) : Prop :=
  if n = 0 then t.oget m key = s.oget m key else t.onat m key = Nat.min (s.onat m key + n) 0xFFFFFFFF

/-- The store that a result in flight of tile `x` makes, into the memories of its realm: one to an output word past the frame's
deadline is discarded (02 R62). -/
def landMem (f : FrameSt) (x : Tile) (k : Nat) (c : List Host.Cell) (d : Dst) : List Host.Cell :=
  match dstPlace k d with
  | some (b, v, w) => if lateStore f x d then c else portStore x c b v w
  | none => c

/-- A vector of exchange memory that a result in flight writes in the frame. -/
def landsIn (f : FrameSt) (x : Tile) (d : Dst) : Option Nat :=
  match d with
  | .memE v _ => if lateStore f x d then none else some v
  | _ => none

/-- The results due at the end of the step, and the others one step nearer. -/
def dueNow (x : Tile) : List Flight := x.flight.filter (fun f => decide (f.left ≤ 1))
def notDue (x : Tile) : List Flight :=
  (x.flight.filter (fun f => decide (1 < f.left))).map (fun f => { f with left := f.left - 1 })

/-- The tile at the end of its step: due results written, `STEP` one more, and the next word to issue. -/
def stepEnd (g : FrameSt) (x : Tile) : Tile :=
  let r := (dueNow x).foldl (fun r f => landReg r f.dst) x.regs
  { x with flight := notDue x, opened := false, dead := false, used := [], portB := [],
           written := ((dueNow x).filterMap (fun f => landsIn g x f.dst)).reverse ++ x.written, issued := x.issued + 1, pc := x.nextPc,
           nextPc := x.nextPc + 1, regs := { r with step := r.step + 1 },
           slackSteps := if ctxSlack x.ctx then x.slackSteps + 1 else x.slackSteps }

/-- The memories at the end of the step: due stores written. -/
def stepMem (g : FrameSt) (k : Nat) (c : List Host.Cell) (x : Tile) : List Host.Cell :=
  (dueNow x).foldl (fun c f => landMem g x k c f.dst) c

/-- Stores due that come past their deadline. -/
def lateDue (g : FrameSt) (x : Tile) : Nat := ((dueNow x).filter (fun f => lateStore g x f.dst)).length

/-- Objects that the end of a step may change. -/
def stepKeys (s : State) (m : RealmId) (k : TileId) : List Nat := (o12_LATE_WRITES + 16 * k.val) :: fetchKeys s m k

/-- The fetch of the tile's word met an uncorrectable error. -/
def fetchBad (s : State) (m : RealmId) (k : TileId) : Bool :=
  (getVec (s.mem m) (progBank (s.tile m k) k) (s.tile m k).pc).2 == .uncorrectable

/-- The tile with its word fetched: a damaged word executes as all-zero and poisons the stores of the rest of the frame or
turn (07 R253). -/
def openTile (s : State) (m : RealmId) (k : TileId) : Tile :=
  let x := s.tile m k
  if x.opened then x
  else { (if fetchBad s m k then damage x else x) with opened := true, dead := fetchBad s m k, used := [], nextPc := x.pc + 1 }

/-- The event and the slot of a tile's operation. -/
def opOf : Instr → Option (TEv × Slot)
  | .mul e _ => some (e, .m)
  | .mac e _ => some (e, .m)
  | .msu e _ => some (e, .m)
  | .add e _ => some (e, .m)
  | .sub e _ => some (e, .m)
  | .min e _ => some (e, .m)
  | .max e _ => some (e, .m)
  | .abs e _ => some (e, .m)
  | .sel e _ => some (e, .m)
  | .clip e _ => some (e, .m)
  | .cmp e _ => some (e, .m)
  | .log2 e _ => some (e, .m)
  | .exp2 e _ => some (e, .m)
  | .rcp e _ => some (e, .m)
  | .ldx e _ => some (e, .x)
  | .ldxB e _ => some (e, .x)
  | .ldxE e _ => some (e, .x)
  | .ldxEB e _ => some (e, .x)
  | .ldy e _ => some (e, .y)
  | .ldyB e _ => some (e, .y)
  | .ldyD e _ => some (e, .y)
  | .stx e _ => some (e, .s)
  | .sty e _ => some (e, .s)
  | .ste e _ => some (e, .s)
  | .std e _ => some (e, .s)
  | .mova e _ => some (e, .s)
  | .movv e _ => some (e, .s)
  | .movvS e _ => some (e, .s)
  | .movsR e _ => some (e, .s)
  | .movsW e _ => some (e, .s)
  | .loop e _ => some (e, .c)
  | .loopRegister e _ => some (e, .c)
  | .endl e => some (e, .c)
  | .bar e _ => some (e, .c)
  | .amod e _ => some (e, .c)
  | .setscl e _ => some (e, .c)
  | .yield e => some (e, .c)
  | .halt e => some (e, .c)
  | _ => none

/-- `q` is the integer nearest to a ÷ 2^d, the even one of two (04 R161). -/
def Nearest (d : Nat) (a q : Int) : Prop :=
  2 * (a - q * 2 ^ d) ≤ 2 ^ d ∧ -(2 ^ d) ≤ 2 * (a - q * 2 ^ d)
    ∧ (2 * (a - q * 2 ^ d) = 2 ^ d ∨ 2 * (a - q * 2 ^ d) = -(2 ^ d) → q % 2 = 0)

/-- The results left in flight after the end of a step, in the order in which they complete (04 R147). -/
def inOrder (x : Tile) : List Flight := (List.range 18).flatMap (fun n => x.flight.filter (fun f => f.left == n))

/-- The tile, and the memories of its realm, when its word has ended and every operation in flight has completed. -/
def drained (g : FrameSt) (x : Tile) : Tile :=
  let z := stepEnd g x
  { z with flight := [], regs := (inOrder z).foldl (fun r f => landReg r f.dst) z.regs,
           written := ((inOrder z).filterMap (fun f => landsIn g z f.dst)).reverse ++ z.written }
def drainedMem (g : FrameSt) (k : Nat) (c : List Host.Cell) (x : Tile) : List Host.Cell :=
  let z := stepEnd g x
  (inOrder z).foldl (fun c f => landMem g z k c f.dst) (stepMem g k c x)

/-! ## Frames -/

/-- What a frame tick does after the count (03 R72 to R78, R86, R94, R121; 06 R203 to R205; 09 R311; 11 R395). -/
def tickRest (u : State) (m : RealmId) : State :=
  let s := endCold (swapDoneTick (flushDirect (applyEffects (clearCounters u m) m) m) m) m
  let s := commitKeeper (portsTick (wckTick (refTick s m) m) m) m
  let s := placeAll (slackTick s m) m
  let s := stageDue (initIncoming (readmit s m) m (s.frameNo m)) m (s.frameNo m)
  let s := if s.frameNo m % 4294967296 = (s.realm m).bus.alarm.toNat then s.irq m 8 else s
  publishReady (releaseDue (windowTick (headroom s m) m) m) m

/-- A load ends with an error: what it wrote is zero, its bank is in state `st`, the loader is reset, LOAD_FAILED is raised
(03 R115, R117). -/
def LoadFails (m : RealmId) (code off st : Nat) (s t : State) : Prop :=
  let f := s.frame m
  let b := inactive f
  OnlyRealm m s t ∧ t.mem m = f.wrote.foldl (fun c r => zeroVecs c r.bank r.lo r.hi) (s.mem m)
    ∧ ObjsBut m ([bankKey b, o14_LOAD_ERROR, o14_LOAD_ERROR_OFFSET, o14_PENDING_CRITICAL_STEPS] ++ eventKeys) s t
    ∧ t.oget m (bankKey b) = (st : Int) ∧ t.oget m o14_LOAD_ERROR = (code : Int) ∧ t.oget m o14_LOAD_ERROR_OFFSET = (off : Int)
    ∧ t.oget m o14_PENDING_CRITICAL_STEPS = 0 ∧ loadState t m = st ∧ Raised m 0x1404 o14_LOAD_ERROR s t
    ∧ (t.realm m).bus.pend.getLsbD 10 = true
    ∧ t.realm m = realmAs { s.realm m with
        frame := { setBankSt f b st with wrote := [] },
        bus := { (s.realm m).bus with resetting := tput 0 (s.realm m).bus.resetting 1 (s.now + 1),
                                      waiting := (s.realm m).bus.waiting.filter (fun w => w.master != 1) } } (t.realm m)

/-- The stream window takes 16 bytes more. -/
def streamed (s : State) (m : RealmId) (data : List Byte) : State :=
  (s.modFrame m (fun f => { f with stream := f.stream ++ data, lastByte := s.now })).oput m o14_LOAD_BYTES
    (((s.frame m).stream.length + data.length : Nat) : Int)

/-! ## Margin Governor -/

/-- The Host Hub's setpoint and its copy in every realm are the highest request (01 R19). -/
def Merged (t : State) : Prop :=
  t.hget o02_VCORE_SETPOINT = (mergedRequest t : Int) ∧ ∀ m, t.onat m o12_VCORE_MERGED = mergedRequest t

/-- What a command of a realm's Governor leaves alone: of the Host Hub all but the objects in `hs`, interrupts and the mirror of
READY, of other realms all but VCORE_MERGED, of its own all but objects in `ks`, the Governor's records, and events. -/
def GovAlone (m : RealmId) (hs ks : List Nat) (s t : State) : Prop :=
  t.pending = s.pending ∧ t.mems = s.mems
    ∧ t.hub = { s.hub with objs := t.hub.objs, ipend := t.hub.ipend, mirror := t.hub.mirror }
    ∧ (∀ k, k ∉ hs → t.hget k = s.hget k)
    ∧ (∀ j, j ≠ m → t.realm j = { s.realm j with objs := (t.realm j).objs } ∧ ObjsBut j [o12_VCORE_MERGED] s t)
    ∧ ObjsBut m ks s t ∧ t.realm m = realmAs { s.realm m with gov := (t.realm m).gov } (t.realm m)

def mergeKeys : List Nat := [o12_VCORE_REQUEST, o12_VCORE_MERGED]

/-! ## Biluno operations as commands -/

/-- What asking for an operation and answering it changes: the sessions' last use, subscriptions of closed sessions, tokens,
the reply, counts of acceptance and their worst times, packets last sent. -/
def Accounts (m : RealmId) (s t : State) : Prop :=
  OnlyRealm m s t ∧ t.mems = s.mems ∧ t.now = s.now
    ∧ ObjsBut m [o28_P0_ACCEPTED, o28_P1_ACCEPTED, o28_P0_WORST, o28_P1_WORST, o28_REPLY_WORST] s t
    ∧ (t.realm m).bil.sessions.map (fun x => { x with lastAt := 0 }) = (s.realm m).bil.sessions.map (fun x => { x with lastAt := 0 })
    ∧ (∀ u ∈ (t.realm m).bil.subs, u ∈ (s.realm m).bil.subs)
    ∧ t.realm m = { s.realm m with objs := (t.realm m).objs, net := { (s.realm m).net with ports := (t.realm m).net.ports },
                                   pair := { (s.realm m).pair with forwards := (t.realm m).pair.forwards },
                                   bil := { (s.realm m).bil with sessions := (t.realm m).bil.sessions, subs := (t.realm m).bil.subs,
                                                                 tok0 := (t.realm m).bil.tok0, tok1 := (t.realm m).bil.tok1,
                                                                 tokAt := (t.realm m).bil.tokAt, reply := (t.realm m).bil.reply } }

/-- The state in which an operation is judged, and the start frame that an unstamped write would get. -/
def askedAt (q : Req) (a : Asker) (o : Op) (s : State) : Nat × State :=
  let s := clearSent (clearSent (s.at q.t) q.m 0) q.m 1
  let x := startFrame (s.modSession q.m q.sess (fun x => { x with lastAt := s.now })) a false [o]
  (x.1, countTokens x.2 q.m)

/-- An asker's operation passes every check of Tables 12-5 and 12-6 and finds its tokens and its resources; the realm is no
active realm that forwards it. -/
def grantedTo (q : Req) (a : Asker) (o : Op) (s : State) : Bool :=
  let u := askedAt q a o s
  (q.sess != 0 || o.code == 7) && !countBad o && !bodyBad o && !forwards (s.at q.t) a [o] && (opErr u.2 a o).isNone
    && (match admitOp u.2 a [o] o with | .ok _ => true | .error _ => false)
    && (resourceBusy u.2 ⟨a, u.1, false, 0, [o]⟩ o).isNone

/-- The realm's Keeper answers, the session is open, and the operation is granted. -/
def Granted (q : Req) (o : Op) (s : State) : Prop :=
  served (s.at q.t) q.m = true ∧ ∃ a, askerOf (s.at q.t) q.m q.sess = some a ∧ grantedTo q a o s = true

/-- Once granted the operation is carried out: `F` relates the state in which it takes effect to the one after it, and gives
the reply operation. -/
def CarriedOut (c : Instr) (q : Req) (o : Op) (s : State) (F : State → State → Op → Prop) : Prop :=
  Granted q o s → ∃ u w t x, exec c s = .next t ∧ Accounts q.m (s.at q.t) u ∧ F u w x ∧ Accounts q.m w t
    ∧ (t.realm q.m).bil.reply = opBytes x

/-- As `CarriedOut`, answered with ACK. -/
def Acks (c : Instr) (q : Req) (o : Op) (s : State) (F : State → State → Prop) : Prop :=
  CarriedOut c q o s (fun u w x => x = ackOp o.oid noFrame ∧ F u w)

/-- An operation on a DEV object through the device mailbox is granted. -/
def HubGrants (t : Time) (o : Op) (s : State) : Prop := s.hub.ready = true ∧ opErr (s.at t) hubAsker o = none

/-- It is carried out: `F` gives the state after it, up to the reply. -/
def HubCarriesOut (c : Instr) (t : Time) (o : Op) (s : State) (F : State → State → Op → Prop) : Prop :=
  HubGrants t o s → ∃ n w x, exec c s = .next (w.modHub (fun h => { h with reply := opBytes x }))
    ∧ F { s.at t with free := n } w x

/-! ## Staging (06) -/

/-- Objects that the Keeper's reads of Y memory may change. -/
def stagingKeys : List Nat := o1A_EGRESS_POISON :: (List.range 16).flatMap (fun k => readKeys (0x10 + k))

/-- The realm becomes as `r`, and slots of its tiles are taken or kept for what waits: the Keeper reads Y memory, and objects in
`ks` change. -/
def SlotsTaken (m : RealmId) (ks : List Nat) (r : Realm) (s t : State) : Prop :=
  RealmAlone m s t ∧ MemBut m (symAddr 0x10 0 0) (symAddr 0x20 0 0) s t ∧ ObjsBut m ks s t
    ∧ (∀ k, t.tile m k = { s.tile m k with slots := (t.tile m k).slots, slotsNext := (t.tile m k).slotsNext,
                                           selsNext := (t.tile m k).selsNext })
    ∧ t.realm m = realmAs { r with tiles := (t.realm m).tiles,
                                   memory := { r.memory with ceRate := (t.realm m).memory.ceRate,
                                                             ceInterval := (t.realm m).memory.ceInterval,
                                                             ceRaised := (t.realm m).memory.ceRaised } } (t.realm m)

/-- As `SlotsTaken`: the writes that start in frame `f` or later wait to be staged anew (06 R231). -/
def Restaged (m : RealmId) (f : Nat) (r : Realm) (s t : State) : Prop :=
  SlotsTaken m (o14_SWAP_ARMED :: stagingKeys)
    { r with frame := { r.frame with direct := r.frame.direct.filter (fun d => decide (d.frame < f)) },
             bil := { r.bil with effects := r.bil.effects.map (fun e =>
               if f ≤ e.frame ∧ e.rw = false then { e with tiles := [] } else e) } } s t

/-! ## Clocks and pins -/

/-- The realm's clock after a loss of lock: an acquisition starts, outputs but those of a first acquisition are silenced at
once, the crystal drives the tick, the steering offset stays where it is (10 R359, R360, R366, R367). -/
def LockLost (m : RealmId) (s t : State) : Prop :=
  let a := (s.realm m).clock
  let c := (t.realm m).clock
  RealmAlone m s t ∧ t.mems = s.mems
    ∧ ObjsBut m ([o22_UNLOCKS, o22_PLL_STATE, o22_SELECTED, o22_SWITCHES, o22_REF_STATE] ++ readyKeys) s t
    ∧ pllState t m = 1 ∧ selected t m = 0xFF ∧ Counted m o22_UNLOCKS 1 s t
    ∧ c.good = 0 ∧ c.glide = 0 ∧ c.fails = 0 ∧ c.acqStart = s.now ∧ c.tickXo = true ∧ c.masterZero = true ∧ c.auxLow = true
    ∧ c.slew = none ∧ c.adjust = none ∧ c.steer = s.oget m o22_STEERING ∧ c.wckRose = none
    ∧ c.source = (if a.first then 0 else 1) ∧ c.first = a.first ∧ c.div = a.div ∧ c.cands = a.cands
    ∧ t.realm m = realmAs { s.realm m with
        clock := c,
        out := if a.first then (s.realm m).out else { (s.realm m).out.silence s.now with pll := Gate.shut },
        ports := if a.first then (s.realm m).ports else (s.realm m).ports.map (fun p => (p.1, quietPort p.2)) } (t.realm m)

/-- The mute pin silences the realm's outputs, and the frames that its serialisers send, at once (08 R287; 09 R330). -/
def PinMuted (m : RealmId) (s t : State) : Prop :=
  Becomes m ([o20_MUTE_PIN_STATE, o20_MUTE_PIN_COUNT] ++ eventKeys)
      { s.realm m with out := { (s.realm m).out.silence s.now with pin := Gate.shut },
                       ports := (s.realm m).ports.map (fun p => (p.1, quietPort p.2)) } s t
    ∧ t.onat m o20_MUTE_PIN_STATE = 1 ∧ Counted m o20_MUTE_PIN_COUNT 1 s t ∧ Raised m 0x2004 o20_MUTE_PIN_STATE s t
    ∧ (t.realm m).bus.pend.getLsbD 0 = true

/-! ## The realm bus -/

/-- The master has no transaction outstanding, and its reset is complete. -/
def MasterFree (s : State) (m : RealmId) (k : Nat) : Prop :=
  (∀ w ∈ (s.realm m).bus.waiting, w.master ≠ k) ∧ tget 0 (s.realm m).bus.resetting k = 0

def answerOf (s : State) (m : RealmId) (k : Nat) : BusAns := tget BusAns.none (s.realm m).bus.answers k

/-- What a bus access to memory leaves alone: of its realm all but objects in `ks`, error rates, events, interrupts, the
answer, and halves of exchange entries that the Keeper makes current. -/
def BusAlone (m : RealmId) (ks : List Nat) (s t : State) : Prop :=
  t.pending = s.pending ∧ t.hub = { s.hub with ipend := t.hub.ipend }
    ∧ (∀ j, j ≠ m → t.realm j = s.realm j ∧ t.mem j = s.mem j) ∧ ObjsBut m ks s t
    ∧ t.realm m = { s.realm m with objs := (t.realm m).objs, frame := { s.frame m with keeperPend := (t.frame m).keeperPend },
                                   memory := { (s.realm m).memory with ceRate := (t.realm m).memory.ceRate,
                                                                       ceInterval := (t.realm m).memory.ceInterval, ceRaised := (t.realm m).memory.ceRaised },
                                   bus := { (s.realm m).bus with pend := (t.realm m).bus.pend,
                                                                 answers := (t.realm m).bus.answers },
                                   bil := { (s.realm m).bil with log := (t.realm m).bil.log, subs := (t.realm m).bil.subs },
                                   gates := (t.realm m).gates }

/-- Memory after a read of a vector: an uncorrectable one is written back poisoned (07 R252). -/
def afterRead (c : List Host.Cell) (bank vec : Nat) : List Host.Cell :=
  if (getVec c bank vec).2 = .uncorrectable ∧ bankHasRes bank = true then putVec c bank vec (getVec c bank vec).1 else c

/-- A vector that a read delivers whole, without a correction. -/
def CleanVec (c : List Host.Cell) (bank vec : Nat) : Prop :=
  (getVec c bank vec).2 = .clean ∧ (bankHasRes bank = true → ∀ i, laneOk ((getVec c bank vec).1.get i) = true)

/-- The answer to a read of one vector: the word of a lane that passes its check, else zero with POISON; each such lane
counts in EGRESS_POISON (07 R255; 08 R283). -/
def Delivered (m : RealmId) (k : Nat) (o : Vec × CodeOut) (bank : Nat) (s t : State) : Prop :=
  let ok := fun i : LaneId => if bankHasRes bank then laneOk (o.1.get i) else o.2 != .uncorrectable
  (∃ d p, answerOf t m k = ⟨[d], [p], false⟩
      ∧ ∀ i : LaneId, d.get i = (if ok i then (o.1.get i).data else 0) ∧ p.getLsbD i.val = !ok i)
    ∧ Counted m o1A_EGRESS_POISON (if bankHasRes bank then laneCount (fun i => !ok i) else 0) s t

/-- The command of a bus operation. -/
def busInstr (e : Ev) (k addr : Nat) (op : BusOp) : Instr :=
  match op with
  | .read n => .busRead e k addr n
  | .write v => .busWrite e k addr v
  | .narrow d be => .narrowWrite e k addr d be
  | .atomic kind lanes w =>
    if kind = 0 then .atomicAdd e k addr lanes w else if kind = 1 then .atomicAddS e k addr lanes w else .atomicSwap e k addr lanes w

def readCount (op : BusOp) : Nat :=
  match op with
  | .read n => n
  | _ => 0

/-- Source `n` is pending and not masked, and none below it is. -/
def Lowest {w : Nat} (pend mask : BitVec w) (n : Nat) : Prop :=
  pend.getLsbD n = true ∧ mask.getLsbD n = false ∧ n < w ∧ ∀ j, j < n → pend.getLsbD j = false ∨ mask.getLsbD j = true

/-- The Host Hub holds nothing that waits for a realm. -/
def HubQuiet (s : State) : Prop := s.hub.drain = none ∧ s.hub.read = none ∧ s.hub.bells = []

/-! ## Serial ports -/

/-- Port `p` enters state `st` (09 R316, R317): outputs and inputs fade in from OPERATING on and out from STOPPING on. -/
def PortTo (m : RealmId) (p st : Nat) (s t : State) : Prop :=
  Becomes m ([o20_STATE + 16 * p, o20_PIN_FAULT + 16 * p] ++ eventKeys) { s.realm m with ports := (t.realm m).ports } s t
    ∧ (∀ j, j ≠ p → t.port m j = s.port m j) ∧ portState t m p = st ∧ (t.realm m).bus.pend.getLsbD 16 = true
    ∧ (st = 3 → (t.port m p).inFade = some (true, 0) ∧ (t.port m p).outFade = some (true, 0) ∧ (t.port m p).taken = none
        ∧ (t.port m p).outs = [] ∧ (t.port m p).sent = [] ∧ t.oget m (o20_PIN_FAULT + 16 * p) = 0)
    ∧ (st = 0 → t.port m p = { Port.reset with
        idle := idleBit s m p, fsync := if isMaster s m p = true then [!fsyncActive s m p] else [] })
    ∧ (st ≠ 0 → (t.port m p).count = 0 ∧ (t.port m p).valid = 0 ∧ (t.port m p).invalid = 0)

/-- Port `p` has lost its clock or its frames (09 R322, R323): DOUT is low at once, the input channels of a RUNNING port fade out
from the last good word, and those of one that fades already, or reads zero, go on so. -/
def PortLost (m : RealmId) (p : Nat) (s t : State) : Prop :=
  Becomes m ([o20_STATE + 16 * p, o20_PIN_FAULT + 16 * p, o20_LOSSES + 16 * p] ++ eventKeys)
      { s.realm m with ports := (t.realm m).ports } s t
    ∧ (∀ j, j ≠ p → t.port m j = s.port m j) ∧ portState t m p = 5 ∧ Counted m (o20_LOSSES + 16 * p) 1 s t
    ∧ Raised m 0x2002 (o20_STATE + 16 * p) s t ∧ (t.port m p).inFade = lostFade (portState s m p) (s.port m p).inFade
    ∧ (t.port m p).outFade = none ∧ (t.port m p).frames = [] ∧ (t.port m p).outs = [] ∧ (t.port m p).sent = []
    ∧ (t.port m p).dout = [] ∧ (t.port m p).tail = [] ∧ (t.port m p).idle = some false

/-! ## Network -/

/-- A frame joins the Keeper's queue of 256 with its timestamp, or is dropped and counted (11 R381). -/
def enqueued (s : State) (m : RealmId) (p : Nat) (stamp : Int) (f : List Byte) : State :=
  if 256 ≤ (s.nport m p).queue.length then s.bump m (o24_RX_DROPS + 16 * p) 1
  else (s.modNport m p (fun x => { x with queue := x.queue ++ [(stamp, f)] })).irq m (12 + p)

/-- A timestamp in ns × 2^16 within 5 ns of the timebase (11 R385). -/
def Stamped (s : State) (m : RealmId) (v : Int) : Prop := ∃ d : Int, -5 ≤ d ∧ d ≤ 5 ∧ v = ((s.tbNs m : Int) + d) * 65536

/-- An RTP packet reaches stream `k` from port `p` (11 R398 to R400): one that does not fit its stream, or lies too far ahead, is
discarded; a late one and a second copy count; any other is stored from its delivery time on. -/
def MediaTaken (m : RealmId) (p k : Nat) (r : List Byte) (s t : State) : Prop :=
  let n := rxS s m k
  let ch := rxo s m o26_CH k
  let enc := rxo s m o26_ENCODING k
  let ssrc := rxo s m o26_SSRC k
  let d := presD s m k
  let x := s.rxst m k
  let seq := be r 2 2
  let stamp := be r 4 4
  let discard := s.bump m (o26_RX_DISCARDS + 16 * k) 1
  match rtpBody r with
  | none => t = discard
  | some b =>
    if byteAt r 0 / 64 ≠ 2 ∨ byteAt r 1 % 128 ≠ rxo s m o26_PT k ∨ (ssrc ≠ 0 ∧ be r 8 4 ≠ ssrc) ∨ r.length < 12
        ∨ b.length ≠ ch * n * sampleBytes enc then t = discard
    else
      match (s.net m).media with
      | none => t = s
      | some mc =>
        let due := nearMod ((stamp : Int) - rxo s m o26_RTP_OFFSET k) mc + d
        let mine := fun (q : RxPkt) => q.seq == seq && q.stamp == stamp
        let keep := fun (ks : List Nat) =>
          Becomes m ((o26_ARRIVAL_MARGIN + 16 * k) :: ks) { s.realm m with net := (t.realm m).net } s t
            ∧ ∀ j, j ≠ k → t.rxst m j = s.rxst m j
        if (mc + d + 2 * n : Int) < due then t = discard
        else if due ≤ mc then
          keep [o26_RX_LATE + 16 * k] ∧ Counted m (o26_RX_LATE + 16 * k) 1 s t ∧ (t.rxst m k).buf = x.buf
        else if 2 ≤ (rxLegs s m k).length ∧ x.pkts.any mine = true then
          keep [o26_RX_DUPLICATES + 16 * k] ∧ Counted m (o26_RX_DUPLICATES + 16 * k) 1 s t ∧ (t.rxst m k).buf = x.buf
        else
          keep [] ∧ (t.rxst m k).pkts = x.pkts ++ [⟨seq, stamp, due.toNat, p == 0, p == 1⟩]
            ∧ ∀ j, tget [] (t.rxst m k).buf j =
                if due.toNat ≤ j ∧ j < due.toNat + n then (rtpWords enc ch n b).getD (j - due.toNat) [] else tget [] x.buf j

/-! ## Messages -/

/-- What the realm has after an error reply of a whole message has left: REPLY_WORST follows it, and it is the one packet sent
(12 R419, R432). -/
def Replied (m : RealmId) (origin : Nat) (d : List Byte) (s t : State) : Prop :=
  ∃ w, w ≤ 1000000
    ∧ let o : NetOut := udpOut s m (origPort origin) (origIp origin) (s.onat m o28_BILUNO_PORT) (origUdp origin) 64 0 d
      t = sendMore (({ s with free := t.free } : State).oput m o28_REPLY_WORST ((Nat.max (s.onat m o28_REPLY_WORST) w : Nat) : Int)) m o

/-- The same for a mailbox: the reply replaces BUFFER, and the mailbox is READY (15 R517). -/
def Placed (m : RealmId) (box : Nat) (d : List Byte) (s t : State) : Prop :=
  ∃ w, w ≤ 1000000
    ∧ t = ((({ s with free := t.free } : State).oput m o28_REPLY_WORST ((Nat.max (s.onat m o28_REPLY_WORST) w : Nat) : Int)).modBox
        box (fun b => { b with state := 2, buffer := d, length := d.length, taken := none })).hirq (10 + box / 4)

/-- Operations that fit one message of the subscriber. -/
def fitsOne (s : State) (m : RealmId) (u : Sub) (ops : List Op) : Prop :=
  let n := (ops.map (fun o => 8 + o.body.length)).foldl (· + ·) 0
  if u.sess = hostSession then ops.length ≤ 62 ∧ n ≤ 1004
  else ∀ x, s.session m u.sess = some x → ops.length ≤ 64 ∧ n ≤ (if x.tagged then 1436 else 1452) ∧ origPort x.origin < 2

/-- A notification in one message: to the source of the session's latest request, with the session's next number; or into the
host's queue, where that of a METER subscription replaces the one that waits and that of a P0 event goes ahead
(12 R441, R443; 15 R521). -/
def notified (s : State) (m : RealmId) (u : Sub) (p0 : Bool) (ops : List Op) : State :=
  if u.sess = hostSession then
    let meter := if u.kind = 1 then u.id else 0
    let old := (s.realm m).bil.hostQ.filter (fun x => meter != 0 && x.meter == meter)
    let q := (s.realm m).bil.hostQ.filter (fun x => !(meter != 0 && x.meter == meter))
    let x : HostNote := ⟨meter, p0, ops⟩
    s.modBil m (fun b => { b with
      hostSeq := b.hostSeq + old.length,
      hostQ := if p0 then q.takeWhile (·.p0) ++ [x] ++ q.dropWhile (·.p0) else q ++ [x] })
  else
    match s.session m u.sess with
    | none => s
    | some x =>
      let d := message 5 x.id ((x.notifySeq + 1) % 4294967296) ops (if x.tagged then some x.sk else none)
      let o : NetOut := udpOut s m (origPort x.origin) (origIp x.origin) (s.onat m o28_BILUNO_PORT) (origUdp x.origin) 64 0 d
      sendMore (s.modSession m x.id (fun y => { y with notifySeq := y.notifySeq + 1 })) m o

/-! ## The host port -/

/-- A command of the host port ends with a code and a count of bytes: a code other than OK is kept in HH_XFER_STICKY, and one other
than PENDING raises XFER (15 R514, Table 15-8). Realms stay. -/
def Ended (code done : Nat) (s t : State) : Prop :=
  RealmsKept s t ∧ t.hub.code = code ∧ t.hub.done = done
    ∧ t.hub.sticky = (if code = 0 then s.hub.sticky else s.hub.sticky ||| BitVec.ofNat 32 (2 ^ code))
    ∧ (code ≠ 0 → code ≠ 12 → t.hub.ipend.getLsbD 23 = true) ∧ t.hub.octal = s.hub.octalNext
    ∧ t.hub.posted = s.hub.posted ∧ t.hub.drain = s.hub.drain ∧ t.hub.read = none
    ∧ t.hub.imask = s.hub.imask ∧ t.hub.objs = s.hub.objs ∧ t.hub.power = s.hub.power ∧ t.hub.mode = s.hub.mode

/-- The mailboxes but one stay. -/
def BoxesBut (n : Nat) (s t : State) : Prop := ∀ k, k ≠ n → boxOf t.hub k = boxOf s.hub k

/-- The bytes that a register burst delivers. -/
def regBytes (s : State) (a n : Nat) : List Byte := (List.range n).map (fun i => wordByte (hhReg s ((a + i) / 4 * 4)) (a + i))

/-! ## Invariants -/

/-- Every memory is in canonical form. -/
def MemOk (s : State) : Prop := ∀ m, twf 0 (s.mem m) = true

/-- A scale register as 04 Table 4-2 lets it read: bits 15 to 12 are 0 and EXP is at most 10. -/
def sclLegal (w : BitVec 16) : Prop := w.toNat < 4096 ∧ sclExp w ≤ 10
/-- A loop register as 04 Table 4-3 lets it read: reserved bits 0, COUNT at most 65,536. -/
def lcLegal (w : BitVec 64) : Prop := w = lcClean w

/-- A result in flight that leaves scale and loop registers legal. -/
def dstLegal (d : Dst) : Prop :=
  match d with
  | .scl _ mask w => sclLegal w ∧ (mask = 0xFFFF ∨ mask = 0xFF3F ∨ mask &&& 0xF000 = 0 ∧ (mask &&& 0x0F00 = 0 ∨ mask &&& 0x0F00 = 0x0F00))
  | .lc _ w => lcLegal w
  | _ => True

/-- The reserved fields of a tile's registers read as the spec says, now and when the results in flight have landed. -/
def TileOk (x : Tile) : Prop :=
  (∀ n, sclLegal (rdScl x.regs n)) ∧ lcLegal x.regs.lc0 ∧ lcLegal x.regs.lc1 ∧ ∀ f ∈ x.flight, dstLegal f.dst

/-- Memories canonical, and every tile's registers legal. -/
def BlockOk (s : State) : Prop := MemOk s ∧ ∀ m k, TileOk (s.tile m k)

/-- Commands of a tile's instruction words. -/
def tileCmd : Instr → Bool
  | .nop _ _ _ => true
  | .mul _ _ => true
  | .mac _ _ => true
  | .msu _ _ => true
  | .add _ _ => true
  | .sub _ _ => true
  | .min _ _ => true
  | .max _ _ => true
  | .abs _ _ => true
  | .sel _ _ => true
  | .clip _ _ => true
  | .cmp _ _ => true
  | .log2 _ _ => true
  | .exp2 _ _ => true
  | .rcp _ _ => true
  | .ldx _ _ => true
  | .ldxB _ _ => true
  | .ldxE _ _ => true
  | .ldxEB _ _ => true
  | .ldy _ _ => true
  | .ldyB _ _ => true
  | .ldyD _ _ => true
  | .stx _ _ => true
  | .sty _ _ => true
  | .ste _ _ => true
  | .std _ _ => true
  | .mova _ _ => true
  | .movv _ _ => true
  | .movvS _ _ => true
  | .movsR _ _ => true
  | .movsW _ _ => true
  | .loop _ _ => true
  | .loopRegister _ _ => true
  | .endl _ => true
  | .bar _ _ => true
  | .amod _ _ => true
  | .setscl _ _ => true
  | .yield _ => true
  | .halt _ => true
  | .operationResult _ => true
  | .barrierRelease _ _ => true
  | _ => false

end Sys2Proof.Machine
end

