-- ==== Sys2Proof/Certificates/Slice0/Obligations.lean ====
section
/-!
DEFINITION. The statements for the provers. `Answers c s P` says that `exec c s` answers a next state of which `P` holds.
-/

open Sys2Proof Sys2Proof.Machine

/-! ## The step of the block -/

/-- A step carries out the command at the front of the queue with the queue's rest; on an empty queue the block idles, which is the
model's choice (log entry 10). -/
def Obligations.StepRunsFront : Prop :=
  (∀ (c : Instr) (rest : List Instr) (s : State), s.pending = c :: rest → step s = exec c { s with pending := rest })
  ∧ (∀ s : State, s.pending = [] → step s = .next s)

/-- The values that the spec gives for reset: every realm DORMANT with its banks EMPTY and its deep banks OFF, both interrupt
controllers masked and idle, tile registers 0, the device in DEEP STANDBY with the power-up sequence started. -/
def Obligations.ResetState : Prop :=
  (∀ m, (State.reset.realm m).mode = .dormant ∧ (State.reset.realm m).bus.mask = BitVec.allOnes 64
      ∧ (State.reset.realm m).bus.pend = 0 ∧ (State.reset.realm m).bus.enable = false
      ∧ (State.reset.realm m).bus.inService = 0xFF ∧ (State.reset.realm m).bus.remap = false
      ∧ (State.reset.frame m).stA = 0 ∧ (State.reset.frame m).stB = 0
      ∧ (∀ b, ((State.reset.realm m).deepPow b).st = 2) ∧ (∀ k, (State.reset.tile m k).regs = Regs.reset))
    ∧ State.reset.hub.mode = .deepStandby ∧ State.reset.hub.power.en = 1 ∧ State.reset.hub.power.seq = 1
    ∧ State.reset.hub.imask = BitVec.allOnes 32 ∧ State.reset.hub.latency = 20 ∧ State.reset.hub.octal = false

/-- After reset memories are canonical and every tile's registers legal. -/
def Obligations.ResetBlockOk : Prop := BlockOk State.reset

/-- Every tile command keeps memories canonical and the registers of every tile legal, whatever it does.
Clauses that rest on the model's choices: log entry 11. -/
def Obligations.TileStepKeepsBlockOk : Prop :=
  ∀ (s t : State) (c : Instr) (rest : List Instr),
    s.pending = c :: rest → tileCmd c = true → BlockOk s → step s = .next t → BlockOk t

/-! ## The code of an instruction word (05 Tables 5-1 to 5-8) -/

/-- Every well-formed word of five slots decodes to itself from the word that the tables give it. -/
def Obligations.TileWordRoundTrip : Prop := ∀ w : TileWord, w.wf = true → decodeWord (encodeWord w) = some w

/-! ## M slot -/

/-- `ADD` and `SUB`: every result lane is the sum or the difference, limited with SAT and modulo 2^32 without, carrying its
residue, after latency 3; a source that fails its check poisons the lane. A limited lane counts in SATURATIONS.
Clauses that rest on the model's choices: log entry 11. -/
def Obligations.AddSubLanes : Prop :=
  ∀ (e : TEv) (f : AddF) (s : State) (neg : Bool), Issues e .m s →
    let v := fun i => if neg then vint s e f.a i - vint s e f.b i else vint s e f.a i + vint s e f.b i
    let ok := fun i => vok s e f.a i && vok s e f.b i
    Answers (if neg then .sub e f else .add e f) s (fun t =>
      SendsV e .m 3 f.d 0xF (aluKeys e.k) (fun i l => LaneIs (ok i) (sumWord f.sat (v i)) l) s t
        ∧ Counted e.m (satKey e.k) (laneCount (fun i => ok i && f.sat && decide (limit32 (v i) ≠ v i))) s t)

/-- `MIN`, `MAX`, `ABS`, `SEL` and `CLIP`: the lane selected, with its residue; `SEL` asks for the check of the selected lane
alone; `ABS` of the most negative word is limited.
Clauses that rest on the model's choices: log entry 11. -/
def Obligations.PickLanes : Prop :=
  ∀ (e : TEv) (s : State), Issues e .m s →
    (∀ f : BinF, Answers (.min e f) s (SendsV e .m 3 f.d 0xF (aluKeys e.k) (fun i l =>
      LaneIs (vok s e f.a i && vok s e f.b i) (BitVec.ofInt 32 (Min.min (vint s e f.a i) (vint s e f.b i))) l) s))
    ∧ (∀ f : BinF, Answers (.max e f) s (SendsV e .m 3 f.d 0xF (aluKeys e.k) (fun i l =>
      LaneIs (vok s e f.a i && vok s e f.b i) (BitVec.ofInt 32 (Max.max (vint s e f.a i) (vint s e f.b i))) l) s))
    ∧ (∀ f : UnF, Answers (.abs e f) s (SendsV e .m 3 f.d 0xF (aluKeys e.k) (fun i l =>
      LaneIs (vok s e f.a i) (sumWord true ((vint s e f.a i).natAbs : Int)) l) s))
    ∧ (∀ f : SelF, Answers (.sel e f) s (SendsV e .m 3 f.d 0xF (aluKeys e.k) (fun i l =>
      let n := if (rdP (s.tile e.m e.k).regs f.p).getLsbD i.val then f.a else f.b
      LaneIs (vok s e n i) (vlane s e n i).data l) s))
    ∧ (∀ f : ClipF, Answers (.clip e f) s (SendsV e .m 3 f.d 0xF (aluKeys e.k) (fun i l =>
      LaneIs (vok s e f.a i && vok s e f.b i && vok s e f.c i)
        (BitVec.ofInt 32 (Min.min (Max.max (vint s e f.a i) (vint s e f.b i)) (vint s e f.c i))) l) s))

/-- `LOG2`, `EXP2` and `RCP` after latency 4, lane by lane, with a generated residue: `LOG2` gives −2^31 for a ≤ 0, (e − 31) × 2^24
for a = 2^e, and 2^24 more for 2 × a; `EXP2` gives 2^31 − 1 for a ≥ 0, 2^(31 − n) for y = −n, and nothing below 0 or above
2^31 − 1; `RCP` gives 2^31 − 1 for 0, the integer nearest to 2^54 ÷ a, at most 2^31 − 1, for a > 0, and its negative for −a.
Clauses that rest on the model's choices: log entries 11, 12. -/
def Obligations.FunctionLanes : Prop :=
  ∀ (e : TEv) (f : UnF) (s : State), Issues e .m s →
    let lanes := fun (g : Int → Int) (i : LaneId) (l : Lane) => LaneIs (vok s e f.a i) (BitVec.ofInt 32 (g (vint s e f.a i))) l
    (∃ log : Int → Int, Answers (.log2 e f) s (SendsV e .m 4 f.d 0xF (aluKeys e.k) (lanes log) s)
      ∧ (∀ a, a ≤ 0 → log a = -(2 ^ 31)) ∧ (∀ n : Nat, n < 31 → log (2 ^ n) = ((n : Int) - 31) * 2 ^ 24)
      ∧ ∀ a, 0 < a → 2 * a < 2 ^ 31 → log (2 * a) = log a + 2 ^ 24)
    ∧ (∃ exp : Int → Int, Answers (.exp2 e f) s (SendsV e .m 4 f.d 0xF (aluKeys e.k) (lanes exp) s)
      ∧ (∀ a, 0 ≤ a → exp a = 2 ^ 31 - 1) ∧ (∀ n : Nat, 0 < n → n < 32 → exp (-(n : Int) * 2 ^ 24) = 2 ^ (31 - n))
      ∧ ∀ a, 0 ≤ exp a ∧ exp a ≤ 2 ^ 31 - 1)
    ∧ (∃ rcp : Int → Int, Answers (.rcp e f) s (SendsV e .m 4 f.d 0xF (aluKeys e.k) (lanes rcp) s)
      ∧ rcp 0 = 2 ^ 31 - 1 ∧ (∀ a, 0 < a → rcp (-a) = -rcp a)
      ∧ ∀ a, 0 < a → (2 ^ 31 - 1 < 2 ^ 54 / a → rcp a = 2 ^ 31 - 1)
          ∧ (2 ^ 54 / a < 2 ^ 31 - 1 → 2 * (2 ^ 54 - rcp a * a) ≤ a ∧ -a ≤ 2 * (2 ^ 54 - rcp a * a)))

/-- `MUL` gives the exact product of 80 bits; `MAC` (op 1) and `MSU` (op 2) add it to and subtract it from the value that the
accumulator will hold once every earlier operation has completed, modulo 2^80. The second factor of every lane is lane BL
with BB. -/
def Obligations.ProductLanes : Prop :=
  ∀ (e : TEv) (f : MulF) (s : State) (op : Fin 3), Issues e .m s →
    let x := s.tile e.m e.k
    let b := fun i : LaneId => if f.bb then f.bl else i
    let p := fun i => vint s e f.a i * vint s e f.b (b i)
    let c := fun i => (accAhead x f.d).get i
    let ok := fun i => vok s e f.a i && vok s e f.b (b i) && (op == 0 || accOk (c i))
    let v := fun i => if op = 0 then p i else if op = 1 then (c i).data.toInt + p i else (c i).data.toInt - p i
    Answers (if op = 0 then .mul e f else if op = 1 then .mac e f else .msu e f) s (fun t =>
      ∃ w : Acc, (∀ i, AccLaneIs (ok i) (BitVec.ofInt 80 (v i)) (w.get i)) ∧ Sends e .m 3 (.acc f.d w) [tallyKey e.k] s t)

/-- `CMP` writes bit i of its predicate as COND and COMB say, and 0 where a source fails its check; each such lane counts in
POISON_COMPARE. -/
def Obligations.ComparePredicate : Prop :=
  ∀ (e : TEv) (f : CmpF) (s : State), Issues e .m s →
    let ok := fun i => vok s e f.a i && vok s e f.b i
    let old := rdP (s.tile e.m e.k).regs f.p
    let key := o16_POISON_COMPARE + 16 * e.k.val
    Answers (.cmp e f) s (fun t =>
      (∃ w : BitVec 4,
        (∀ i : LaneId, w.getLsbD i.val =
          (ok i && combine f.comb (old.getLsbD i.val) (condHolds f.cond (vint s e f.a i) (vint s e f.b i))))
        ∧ Sends e .m 3 (.pred f.p w) [key, tallyKey e.k] s t)
      ∧ Counted e.m key (laneCount (fun i => !ok i)) s t)

/-! ## Loads and stores -/

/-- `LDX`, `LDX.B`, `LDY`, `LDY.B` deliver from the tile's X or Y memory after 2 steps the vector that holds the addressed
word, or that word in all four lanes, with the post-modify applied after the address is used.
Clauses that rest on the model's choices: log entry 11. -/
def Obligations.LoadsOwnMemory : Prop :=
  ∀ (e : TEv) (f : LdF) (s : State),
    let a := fun sd => wordAddr (s.tile e.m e.k).regs sd f.ad 15
    (Issues e .x s → Answers (.ldx e f) s (Loads e .x .x f 2 e.k.val (a .x / 4) id s)
      ∧ Answers (.ldxB e f) s (Loads e .x .x f 2 e.k.val (a .x / 4) (fun v => Quad.all (v.get (fin4 (a .x)))) s))
    ∧ (Issues e .y s → Answers (.ldy e f) s (Loads e .y .y f 2 (0x10 + e.k.val) (a .y / 4) id s)
      ∧ Answers (.ldyB e f) s (Loads e .y .y f 2 (0x10 + e.k.val) (a .y / 4) (fun v => Quad.all (v.get (fin4 (a .y)))) s))

/-- `LDX.E` and `LDX.E.B` deliver from exchange memory after 4 steps: of an entry with two halves, the half that the tile
reads in this frame.
`LDY.D` delivers after exactly 16 steps: through a slot of the tile for its context the stored vector; from a bank that is
not ON zero, with POWER_FAULTS; outside the tile's slots zero, with DEEP_VIOLATION.
Clauses that rest on the model's choices: log entry 11. -/
def Obligations.LoadsSharedMemory : Prop :=
  (∀ (e : TEv) (f : LdF) (s : State), Issues e .x s →
     let x := s.tile e.m e.k
     let a := wordAddr x.regs .x f.ad 17
     let v := exchLoadVec (s.frame e.m) x (a / 4)
     Answers (.ldxE e f) s (Loads e .x .x f 4 0x80 v id s)
     ∧ Answers (.ldxEB e f) s (Loads e .x .x f 4 0x80 v (fun v => Quad.all (v.get (fin4 a))) s))
  ∧ (∀ (e : TEv) (f : LdF) (s : State), Issues e .y s →
       let x := s.tile e.m e.k
       let a := wordAddr x.regs .y f.ad 22
       let allowed := slotAllows (tileImg (s.frame e.m) x) x e.k a false
       let zero := Issued e ([o18_POWER_FAULTS + 16 * (0x40 + deepBank a), o16_DEEP_VIOLATION + 16 * e.k.val] ++ eventKeys)
         (LoadTile e .y .y f 16 zeroVec s) s
       (allowed = true → (s.realm e.m).deepOn (deepBank a) = true →
         Answers (.ldyD e f) s (Loads e .y .y f 16 (0x40 + deepBank a) (deepVec a) id s))
       ∧ (allowed = true → (s.realm e.m).deepOn (deepBank a) = false →
         Answers (.ldyD e f) s (fun t => zero t ∧ Counted e.m (o18_POWER_FAULTS + 16 * (0x40 + deepBank a)) 1 s t))
       ∧ (allowed = false →
         Answers (.ldyD e f) s (fun t => zero t ∧ Counted e.m (o16_DEEP_VIOLATION + 16 * e.k.val) 1 s t)))

/-- `STX` and `STY` write the words read at issue to the addressed vector of the tile's own memory at the end of the step.
Clauses that rest on the model's choices: log entry 11. -/
def Obligations.StoresOwnMemory : Prop :=
  ∀ (e : TEv) (f : StF) (s : State), Issues e .s s →
    let x := s.tile e.m e.k
    Answers (.stx e f) s (SendsStore e .x f.ad (.memX (wordAddr x.regs .x f.ad 15 / 4) (storeWords x f.s)) [] s)
    ∧ Answers (.sty e f) s (SendsStore e .y f.ad (.memY (wordAddr x.regs .y f.ad 15 / 4) (storeWords x f.s)) [] s)

/-- `STE` stores where the tile is the writer in its context; elsewhere the store is discarded and EXCH_VIOLATION counts; an
output store after the deadline is discarded and LATE_WRITES counts. The post-modify is applied in every case.
`STD` stores through a slot of the tile for its context that lets it write, into a bank that is ON; otherwise it is
discarded and POWER_FAULTS or DEEP_VIOLATION counts.
Clauses that rest on the model's choices: log entry 11. -/
def Obligations.StoresSharedMemory : Prop :=
  (∀ (e : TEv) (f : StF) (s : State), Issues e .s s →
     let x := s.tile e.m e.k
     let vec := wordAddr x.regs .x f.ad 17 / 4
     let viol := o14_EXCH_VIOLATION + 16 * e.k.val
     (∀ p, exchStore (s.frame e.m) x e.k vec = .store p →
       Answers (.ste e f) s (SendsStore e .x f.ad (.memE p (storeWords x f.s)) [] s))
     ∧ (exchStore (s.frame e.m) x e.k vec = .violation →
       Answers (.ste e f) s (fun t => SendsNoStore e .x f.ad (viol :: eventKeys) s t ∧ Counted e.m viol 1 s t))
     ∧ (exchStore (s.frame e.m) x e.k vec = .late →
       Answers (.ste e f) s (fun t => SendsNoStore e .x f.ad [o12_LATE_WRITES + 16 * e.k.val] s t
         ∧ Counted e.m (o12_LATE_WRITES + 16 * e.k.val) 1 s t)))
  ∧ (∀ (e : TEv) (f : StF) (s : State), Issues e .s s →
       let x := s.tile e.m e.k
       let a := wordAddr x.regs .y f.ad 22
       let allowed := slotAllows (tileImg (s.frame e.m) x) x e.k a true
       let on := (s.realm e.m).deepOn (deepBank a)
       let fault := o18_POWER_FAULTS + 16 * (0x40 + deepBank a)
       let viol := o16_DEEP_VIOLATION + 16 * e.k.val
       (allowed = true → on = true →
         Answers (.std e f) s (SendsStore e .y f.ad (.memD (deepBank a) (deepVec a) (storeWords x f.s)) [] s))
       ∧ (allowed = true → on = false →
         Answers (.std e f) s (fun t => SendsNoStore e .y f.ad [fault] s t ∧ Counted e.m fault 1 s t))
       ∧ (allowed = false →
         Answers (.std e f) s (fun t => SendsNoStore e .y f.ad (viol :: eventKeys) s t ∧ Counted e.m viol 1 s t)))

/-- A post-modify with a modulo length stays in the buffer that begins at the register's aligned base: it moves by the offset
modulo the length; without a length it moves modulo 2^24. -/
def Obligations.ModuloStaysInBuffer : Prop :=
  ∀ (a : BitVec 24) (o : Int) (len : Nat), len < 65536 →
    (len = 0 → ((nextAddr a o len).toNat : Int) = ((a.toNat : Int) + o) % 2 ^ 24)
    ∧ (0 < len → ∃ n, len ≤ 2 ^ n ∧ (∀ j, len ≤ 2 ^ j → n ≤ j)
        ∧ let base : Int := (a.toNat / 2 ^ n * 2 ^ n : Nat)
          ((nextAddr a o len).toNat : Int) = base + ((a.toNat : Int) - base + o) % (len : Int))

/-! ## Moves -/

/-- `MOVA` gives each lane of WMASK the accumulator's value divided by 2^(31 − k), rounded to the nearest integer and a tie to the
even one, limited with SAT and modulo 2^32 without; k is SHIFT, plus EXP with LINK 1 and minus EXP with LINK 2. `MOVV.S` does the
same to the lane times 2^31. Both have latency 2; a limited lane counts in SATURATIONS; a source that fails its check poisons the
lane.
Clauses that rest on the model's choices: log entry 11. -/
def Obligations.MovesConvert : Prop :=
  ∀ (e : TEv) (s : State), Issues e .s s →
    let r := (s.tile e.m e.k).regs
    let shift := fun w : BitVec 16 => sclShift w + (if sclLink w = 1 then (sclExp w : Int) else if sclLink w = 2 then -sclExp w else 0)
    let moved := fun (d : VReg) (n : Fin 8) (mask : BitVec 4) (ok : LaneId → Bool) (a : LaneId → Int) (t : State) =>
      ∃ q : LaneId → Int, (∀ i, Nearest (31 - shift (rdScl r n)).toNat (a i) (q i))
        ∧ SendsV e .s 2 d mask (aluKeys e.k) (fun i l => LaneIs (ok i) (sumWord (sclSat (rdScl r n)) (q i)) l) s t
        ∧ Counted e.m (satKey e.k)
            (laneCount (fun i => mask.getLsbD i.val && ok i && sclSat (rdScl r n) && decide (limit32 (q i) ≠ q i))) s t
    (∀ f : MovaF, Answers (.mova e f) s (moved f.d f.scl f.wmask (fun i => accOk ((rdAcc r f.acc).get i))
      (fun i => ((rdAcc r f.acc).get i).data.toInt)))
    ∧ (∀ f : MovvSF, Answers (.movvS e f) s (moved f.d f.scl 0xF (fun i => vok s e f.a i) (fun i => vint s e f.a i * 2 ^ 31)))

/-- `MOVV` copies four lanes unchanged after one step. `MOVS.R` reads a special register after two; an accumulator's lane
that fails its check gives a poisoned lane. `MOVS.W` writes one after two steps: a source lane that fails its check gives 0, a
write to `STEP` or `EPOCH` is discarded. A reserved code executes as `NOP` and counts.
Clauses that rest on the model's choices: log entry 11. -/
def Obligations.MovesSpecial : Prop :=
  (∀ (e : TEv) (s : State), Issues e .s s →
     let r := (s.tile e.m e.k).regs
     (∀ f : UnF, Answers (.movv e f) s (SendsV e .s 1 f.d 0xF [] (fun i l => l = vlane s e f.a i) s))
     ∧ (∀ f : MovsF, ∀ q, specOf f.code = some q → Answers (.movsR e f) s (SendsV e .s 2 f.v 0xF [tallyKey e.k] (fun i l =>
         LaneIs (match q with | .acc n _ => accOk ((rdAcc r n).get i) | _ => true) ((specRead r q).get i) l) s))
     ∧ (∀ f : MovsF, specOf f.code = none → Answers (.movsR e f) s (fun t =>
         SendsNone e .s ((o16_ILLEGAL_SLOT + 16 * e.k.val) :: eventKeys) s t
           ∧ Counted e.m (o16_ILLEGAL_SLOT + 16 * e.k.val) 1 s t)))
  ∧ (∀ (e : TEv) (f : MovsF) (s : State), Issues e .s s →
       (∀ q, specOf f.code = some q →
         let ok := fun i => !specUses q i || vok s e f.v i
         let w : Quad (BitVec 32) := match q with
           | .acc _ _ => (Quad.all 0).imap (fun i _ => if ok i then (vlane s e f.v i).data else 0)
           | _ => if ∀ i, ok i = true then (Quad.all 0).imap (fun i _ => (vlane s e f.v i).data) else Quad.all 0
         Answers (.movsW e f) s (fun t =>
           match specWrite q w with
           | some d => Sends e .s 2 d [tallyKey e.k] s t
           | none => (q = .step ∨ q = .epoch) ∧ SendsNone e .s [tallyKey e.k] s t))
       ∧ (specOf f.code = none → Answers (.movsW e f) s (fun t =>
           SendsNone e .s ((o16_ILLEGAL_SLOT + 16 * e.k.val) :: eventKeys) s t
             ∧ Counted e.m (o16_ILLEGAL_SLOT + 16 * e.k.val) 1 s t)))

/-! ## C slot -/

/-- `LOOP` takes `LC0` when that is inactive, else `LC1`: START the next word, COUNT as given, ACTIVE; the register form takes
COUNT from a lane, limited to 0 to 65,536, and sets END; with count 0 it goes on past END and the loop register stays inactive, its
other fields as they were, which is the model's choice (log entry 11). With both active it counts as an
illegal slot. -/
def Obligations.LoopsBegin : Prop :=
  ∀ (e : TEv) (s : State), Issues e .c s →
    let x := s.tile e.m e.k
    let free : Option (Fin 2) := if lcActive x.regs.lc0 = false then some 0 else if lcActive x.regs.lc1 = false then some 1 else none
    let illegal := fun t => SendsNone e .c ((o16_ILLEGAL_SLOT + 16 * e.k.val) :: eventKeys) s t
      ∧ Counted e.m (o16_ILLEGAL_SLOT + 16 * e.k.val) 1 s t
    (∀ f : LoopF, Answers (.loop e f) s (fun t =>
      match free with
      | some i => Sends e .c 1 (.lc i (lcWord true f.rot (lcEnd (lcGet x.regs i)) (x.pc + 1) (f.n1.toNat + 1))) [] s t
      | none => illegal t))
    ∧ (∀ f : LoopRF, Answers (.loopRegister e f) s (fun t =>
      let n := vreg f.v
      let count : Int := if vok s e n f.lane then Max.max 0 (Min.min 65536 (vint s e n f.lane)) else 0
      match free with
      | some i =>
        if count = 0 then Issued e [tallyKey e.k] { wordTile x .c (joins x .c 1 (.lc i (lcWord false (lcRotate (lcGet x.regs i))
            f.endA.toNat (lcStart (lcGet x.regs i)) (lcCount (lcGet x.regs i)))) x.flight) with nextPc := f.endA.toNat + 1 } s t
        else Sends e .c 1 (.lc i (lcWord true f.rot f.endA.toNat (x.pc + 1) count.toNat)) [tallyKey e.k] s t
      | none => illegal t))

/-- `ENDL` of the innermost loop: with COUNT above 1 the next word is START and COUNT one less; else the loop ends and the
next word follows END. A rotating loop advances `ROT` in both cases. Without a loop it counts as an illegal slot. -/
def Obligations.LoopsEnd : Prop :=
  ∀ (e : TEv) (s : State), Issues e .c s →
    let x := s.tile e.m e.k
    let inner : Option (Fin 2) := if lcActive x.regs.lc1 then some 1 else if lcActive x.regs.lc0 then some 0 else none
    Answers (.endl e) s (fun t =>
      match inner with
      | none => SendsNone e .c ((o16_ILLEGAL_SLOT + 16 * e.k.val) :: eventKeys) s t
          ∧ Counted e.m (o16_ILLEGAL_SLOT + 16 * e.k.val) 1 s t
      | some i =>
        let w := lcGet x.regs i
        let again := decide (1 < lcCount w)
        let fl := if lcRotate w then joins x .c 1 (.rot (x.regs.rot + 1)) x.flight else x.flight
        Issued e [] { wordTile x .c (joins x .c 1
            (.lc i (lcWord again (lcRotate w) x.pc (lcStart w) (if again then lcCount w - 1 else lcCount w))) fl) with
          nextPc := if again then lcStart w else x.pc + 1 } s t)

/-- `AMOD` moves an address register by its offset: modulo 2^24 without a length, and within the buffer at its aligned base with
one. `SETSCL` writes EXP with MODE bit 0, at most 10 and kept where the source lane fails its check, and LINK, SAT and SHIFT with
MODE bit 1; the other fields stay. Both take effect after one step.
Clauses that rest on the model's choices: log entry 11. -/
def Obligations.AddressAndScaleSet : Prop :=
  ∀ (e : TEv) (s : State), Issues e .c s →
    let x := s.tile e.m e.k
    (∀ f : AmodF,
      let a := rdAddr x.regs f.side f.a
      let o := if f.oe then (rdOffs x.regs f.side f.o).toInt else f.imm.toInt
      let len := if f.me then (rdMod x.regs f.side f.md).toNat else 0
      Answers (.amod e f) s (fun t => ∃ w : BitVec 24, Sends e .c 1 (.addr f.side f.a w) [] s t
        ∧ (len = 0 → (w.toNat : Int) = ((a.toNat : Int) + o) % 2 ^ 24)
        ∧ (0 < len → ∃ n, len ≤ 2 ^ n ∧ (∀ j, len ≤ 2 ^ j → n ≤ j)
            ∧ let base : Int := (a.toNat / 2 ^ n * 2 ^ n : Nat)
              (w.toNat : Int) = base + ((a.toNat : Int) - base + o) % (len : Int))))
    ∧ (∀ f : SetsclF,
      let old := rdScl x.regs f.n
      let v := if f.xsrc then (vlane s e (vreg f.xv) f.xl).data.toNat else f.xv.val
      let ok := !f.xsrc || vok s e (vreg f.xv) f.xl
      let exp := f.mode.getLsbD 0 && ok
      let rest := f.mode.getLsbD 1
      let mask : BitVec 16 := (if exp then 0x0F00 else 0) ||| (if rest then 0x00FF else 0)
      let w := BitVec.ofNat 16 (Min.min v 10 * 256 + f.link.toNat * 64 + f.sat.toNat * 32 + f.shift.toNat)
      let new := rdScl (landReg x.regs (.scl f.n mask w)) f.n
      Answers (.setscl e f) s (Sends e .c 1 (.scl f.n mask w) [tallyKey e.k] s)
        ∧ sclExp new = (if exp then Min.min v 10 else sclExp old)
        ∧ new.toNat % 256 = (if rest then f.link.toNat * 64 + f.sat.toNat * 32 + f.shift.toNat else old.toNat % 256)
        ∧ new.toNat / 4096 = old.toNat / 4096)

/-- `BAR` in its place ends the step and makes the tile wait; out of place it counts as an illegal slot. A barrier of an image that
every participant has reached releases them all at once; a tile that does not wait at it, or whose image's barrier still lacks a
participant, stays as it is, and nothing else changes.
Clauses that rest on the model's choices: log entry 11. -/
def Obligations.BarriersJoinAndRelease : Prop :=
  (∀ (e : TEv) (b : Fin 8) (s : State), Issues e .c s →
    let x := s.tile e.m e.k
    let g := s.frame e.m
    let y := wordTile x .c x.flight
    (barLegal (tileImg g x) x e.k b = true → ∃ sw, x.ctx = .fore sw ∧
      Answers (.bar e b) s (fun t =>
        TileAlone e.m e.k s t ∧ ObjsBut e.m (stepKeys s e.m e.k) s t ∧ t.mem e.m = stepMem g e.k (s.mem e.m) y
          ∧ Counted e.m (o12_LATE_WRITES + 16 * e.k.val) (lateDue g y) s t
          ∧ t.tile e.m e.k = { stepEnd g y with ctx := .barrier b sw, joined := x.joined ||| BitVec.ofNat 8 (2 ^ b.val) }))
    ∧ (barLegal (tileImg g x) x e.k b = false →
      Answers (.bar e b) s (fun t => SendsNone e .c ((o16_ILLEGAL_SLOT + 16 * e.k.val) :: eventKeys) s t
        ∧ Counted e.m (o16_ILLEGAL_SLOT + 16 * e.k.val) 1 s t)))
  ∧ (∀ (e : Ev) (b : Fin 8) (s : State),
    let mask := fun n => barMask (bankImg (s.frame e.m) n) b.val
    let waits := fun (n : Fin 2) (k : Nat) => (s.tile e.m k).bank = n ∧ ∃ sw, (s.tile e.m k).ctx = .barrier b sw
    let all := fun n => mask n ≠ 0 ∧ ∀ k, k < 16 → maskHas (mask n) k = true → waits n k
    Answers (.barrierRelease e b) s (fun t =>
      OnlyRealm e.m s t ∧ t.mems = s.mems ∧ t.realm e.m = { s.realm e.m with tiles := (t.realm e.m).tiles }
        ∧ ∀ k, (∀ n sw, all n → k < 16 → maskHas (mask n) k = true → (s.tile e.m k).ctx = .barrier b sw →
              t.tile e.m k = { s.tile e.m k with ctx := .fore sw })
            ∧ ((∀ n, all n → 16 ≤ k ∨ maskHas (mask n) k = false) → t.tile e.m k = s.tile e.m k)))

/-- A slack task that yields goes on later from the next word, and the tile turns to the next runnable task; a save routine's
`YIELD` ends the turn, and the tile waits for its frame; a restore routine's `YIELD` lets its task go on. In every case the word's
step has ended and every operation in flight has completed; another slot of the word that issued counts as an illegal slot.
Elsewhere `YIELD` counts as one.
`HALT` of the foreground program ends the tile's frame, and in time the tile turns to its slack tasks; `HALT` of a slack task, of
its save or its restore routine ends its current job.
Clauses that rest on the model's choices: log entry 11. -/
def Obligations.YieldAndHalt : Prop :=
  ∀ (e : TEv) (s : State), Issues e .c s →
    let x := s.tile e.m e.k
    let g := s.frame e.m
    let y := wordTile x .c x.flight
    let d := drained g y
    let tab := slackTable (tileImg g x) e.k
    let illegal := o16_ILLEGAL_SLOT + 16 * e.k.val
    let ended := fun t => TileAlone e.m e.k s t
      ∧ ObjsBut e.m (illegal :: (o16_PROGRAM_END + 16 * e.k.val) :: eventKeys ++ stepKeys s e.m e.k) s t
      ∧ t.mem e.m = drainedMem g e.k (s.mem e.m) y ∧ (t.tile e.m e.k).flight = [] ∧ (t.tile e.m e.k).issued = x.issued + 1
    let counts := fun t => Counted e.m illegal (if x.opened = true ∧ (∃ sl ∈ x.used, sl ≠ .c) then 1 else 0) s t
    (∀ en, x.ctx = .slack en →
      let p := { taskOf x en with resume := some y.nextPc, damaged := false }
      let z := pickSlack (turnPast (setTask d en p) tab en) tab
      Answers (.yield e) s (fun t => ended t ∧ counts t
        ∧ (y.nextPc ≤ 8191 → taskOf (t.tile e.m e.k) en = p)
        ∧ (ctxSlack z.ctx = false ∨ z.pc ≤ 8191 → t.tile e.m e.k = z)))
    ∧ (∀ en, x.ctx = .save en → lateTarget g x.frame = none → Answers (.yield e) s (fun t =>
      ended t ∧ counts t ∧ t.tile e.m e.k = { d with ctx := .idle }))
    ∧ (∀ en b, x.ctx = .restore en → tab[en]? = some b → Answers (.yield e) s (fun t =>
      let pc := (taskOf x en).resume.getD b.entry
      ended t ∧ counts t ∧ (pc ≤ 8191 → (t.tile e.m e.k).ctx = .slack en ∧ (t.tile e.m e.k).pc = pc
        ∧ taskOf (t.tile e.m e.k) en = { taskOf x en with restoreDue := false } ∧ (t.tile e.m e.k).regs = d.regs)))
    ∧ (∀ sw, x.ctx = .fore sw →
      Answers (.yield e) s (fun t => SendsNone e .c (illegal :: eventKeys) s t ∧ Counted e.m illegal 1 s t)
      ∧ Answers (.halt e) s (fun t =>
          (t.tile e.m e.k).halted = some x.frame ∧ (t.tile e.m e.k).flight = [] ∧ (t.tile e.m e.k).issued = x.issued + 1 ∧ counts t
            ∧ (pastDeadline g x.frame = false →
                let z := pickSlack { d with halted := some x.frame, ctx := .idle } tab
                ended t ∧ (ctxSlack z.ctx = false ∨ z.pc ≤ 8191 → t.tile e.m e.k = z))))
    ∧ (∀ en, x.ctx = .slack en ∨ x.ctx = .restore en ∨ x.ctx = .save en → Answers (.halt e) s (fun t =>
        taskOf (t.tile e.m e.k) en = ⟨none, false, true, (taskOf x en).job, false⟩ ∧ (t.tile e.m e.k).flight = []
          ∧ (t.tile e.m e.k).halted = x.halted ∧ (t.tile e.m e.k).issued = x.issued + 1 ∧ counts t))

/-- The end of a step writes the results that are due and brings the others nearer, counts the word in `STEP`, and goes on at
the word that loop control chose. Slack code that runs past address 8,191 counts in PROGRAM_END and ends its job.
Clauses that rest on the model's choices: log entry 11. -/
def Obligations.StepEndLands : Prop :=
  ∀ (e : TEv) (s : State), ctxRuns (s.tile e.m e.k).ctx = true →
    let y := openTile s e.m e.k
    let g := s.frame e.m
    (ctxSlack y.ctx = false ∨ y.nextPc ≤ 8191 →
      Answers (.operationResult e) s (fun t =>
        TileAlone e.m e.k s t ∧ ObjsBut e.m (stepKeys s e.m e.k) s t ∧ t.mem e.m = stepMem g e.k (s.mem e.m) y
          ∧ Counted e.m (o12_LATE_WRITES + 16 * e.k.val) (lateDue g y) s t ∧ t.tile e.m e.k = stepEnd g y))
    ∧ (∀ en, y.ctx = .slack en ∨ y.ctx = .restore en ∨ y.ctx = .save en → 8191 < y.nextPc →
      Answers (.operationResult e) s (fun t =>
        (∃ n, 0 < n ∧ Counted e.m (o16_PROGRAM_END + 16 * e.k.val) n s t) ∧ (taskOf (t.tile e.m e.k) en).ended = true
          ∧ (t.tile e.m e.k).flight = []))

/-- `NOP` with a legal word issues nothing: its step is opened and nothing else changes. A slot that presents a condition of
Table 5-9 executes as `NOP` and counts in ILLEGAL_SLOT. A word whose fetch meets an uncorrectable error executes as all-zero,
whatever its slots hold, and the tile's later stores write poison: UE_COUNT of the program memory counts, and no memory changes. A
slot that has issued its operation, and a tile that issues no words, issue nothing, which is the model's choice (log entry 11). -/
def Obligations.NopIssuesNothing : Prop :=
  (∀ (e : TEv) (sl : Slot) (bits : BitVec 32) (s : State), Issues e sl s →
     (slotLegal sl bits = true → Answers (.nop e sl bits) s (Issued e [] (openTile s e.m e.k) s))
     ∧ (slotLegal sl bits = false → Answers (.nop e sl bits) s (fun t =>
         Issued e ((o16_ILLEGAL_SLOT + 16 * e.k.val) :: eventKeys) (openTile s e.m e.k) s t
           ∧ Counted e.m (o16_ILLEGAL_SLOT + 16 * e.k.val) 1 s t ∧ (t.realm e.m).bus.pend.getLsbD 23 = true)))
  ∧ (∀ (c : Instr) (e : TEv) (sl : Slot) (s : State), opOf c = some (e, sl) →
       (ctxRuns (s.tile e.m e.k).ctx = true → (s.tile e.m e.k).opened = false → fetchBad s e.m e.k = true →
         Answers c s (fun t =>
           TileAlone e.m e.k s t ∧ t.mems = s.mems ∧ ObjsBut e.m (fetchKeys s e.m e.k) s t ∧ t.tile e.m e.k = openTile s e.m e.k
             ∧ (t.tile e.m e.k).dead = true ∧ storesPoison (t.tile e.m e.k) = true
             ∧ Counted e.m (o18_UE_COUNT + 16 * progBank (s.tile e.m e.k) e.k) 1 s t))
       ∧ (ctxRuns (s.tile e.m e.k).ctx = false ∨ ((s.tile e.m e.k).opened = true ∧ sl ∈ (s.tile e.m e.k).used) →
         exec c s = .next (s.at e.t)))

/-! ## Frames (02, 03) -/

/-- A frame tick that is due, in any mode but DORMANT and with the realm's crystal present, counts: the first tick gives frame 0, or
the PTP-derived number while PTP is the selected reference; a tick at which PTP becomes the selected reference takes its number;
any other tick one more. The frame's start and deadline lie ahead. The rest of the tick is `tickRest`, which leaves the count, the
instants and the frame's start and deadline as they are.
Clauses that rest on the model's choices: log entries 16, 21. -/
def Obligations.FrameTickCounts : Prop :=
  ∀ (e : Ev) (s : State), (s.realm e.m).mode ≠ .dormant → (s.realm e.m).xo = true → tickDue (s.at e.t) e.m = true →
    let s0 := s.at e.t
    let f := s.frame e.m
    let ptp : Prop := selected s0 e.m = 0
    ∃ u t, exec (.frameTick e) s = .next t ∧ t = tickRest u e.m
      ∧ RealmAlone e.m s u ∧ u.mems = s.mems ∧ (u.realm e.m).out = (s.realm e.m).out ∧ (u.realm e.m).ports = (s.realm e.m).ports
      ∧ (f.ticked = true → ptp → f.byPtp = false → f.armed = none → Raised e.m 0x1401 o14_FRAME_NUMBER s u)
      ∧ (∀ v, v = u ∨ v = t →
          (f.ticked = false → (v.frame e.m).number = if ptp then ptpFrame s0 e.m else 0)
          ∧ (f.ticked = true → ptp → f.byPtp = false → (v.frame e.m).number = ptpFrame s0 e.m)
          ∧ (f.ticked = true → (ptp → f.byPtp = true) → (v.frame e.m).number = f.number + 1)
          ∧ (v.frame e.m).tickAt = s0.now ∧ (v.frame e.m).prevTick = f.tickAt ∧ (v.frame e.m).ticked = true
          ∧ (v.frame e.m).started = false ∧ (v.frame e.m).deadline = false)
      ∧ (u.frame e.m).k = if f.running then f.k + 1 else f.k

/-- The foreground start comes once after a tick: every idle tile with a program starts the frame at its entry with STEP, ROT,
the loop registers and the predicates 0 and EPOCH that of the image. The deadline comes once after it: a tile that has not
reached `HALT` of the frame overruns.
Clauses that rest on the model's choices: log entries 17, 18. -/
def Obligations.StartAndDeadline : Prop :=
  ∀ (e : Ev) (s : State),
    let f := s.frame e.m
    let swap := f.swapHand && decide (f.swapFrame.map Prod.fst = some f.number)
    let now := (s.at e.t).now
    (f.ticked = true → f.started = false → f.running = false →
      exec (.foregroundStart e) s = .next ((s.at e.t).modFrame e.m (fun f => { f with started := true })))
    ∧ (f.ticked = true → f.started = false → f.running = true →
      Answers (.foregroundStart e) s (fun t =>
        RealmAlone e.m s t ∧ t.frame e.m = { f with started := true }
          ∧ ∀ k : TileId, (s.tile e.m k).ctx = .idle → hasSec (activeImg f) 0x0004 k = true →
              let x := t.tile e.m k
              let pc := if swap then (timing (activeImg f) k).swapEntry else 0
              x.ctx = .fore swap ∧ x.pc = pc ∧ x.nextPc = pc + 1 ∧ x.frame = f.number ∧ x.opened = false ∧ x.lateStart = false
                ∧ x.joined = 0 ∧ x.written = [] ∧ x.kf = f.k ∧ x.bank = f.active
                ∧ x.regs = { (s.tile e.m k).regs with step := 0, rot := 0, lc0 := 0, lc1 := 0, p := [],
                                                      epoch := BitVec.ofNat 16 (imgEpoch (activeImg f)) }))
    ∧ (f.started = true → f.deadline = false →
      Answers (.deadline e) s (fun t =>
        RealmAlone e.m s t ∧ t.frame e.m = { f with deadline := true } ∧ (t.net e.m).outs.isSome = true
          ∧ ∀ k : TileId, t.tile e.m k = { s.tile e.m k with
              overruns := if f.running = true ∧ (s.tile e.m k).halted ≠ some f.number
                then now :: (s.tile e.m k).overruns.filter (fun x => decide (now ≤ x + ms 100)) else (s.tile e.m k).overruns }))

/-- STAGED_RECORD_WRITE writes the records of the earliest start frame that a tile has not got into its Y memory, unless the
tile has still to adopt earlier ones or they belong to an incoming image whose own records are not written yet; the tile then has
that frame's writes, and later ones are staged again. STAMP_REWRITE gives every record moved by a realignment its new start, the
next frame where the count has passed it. STAMPED_WRITE_DUE applies the plain writes that are due and drops them.
Clauses that rest on the model's choices: log entries 20, 21, 60. -/
def Obligations.StagedRecords : Prop :=
  ∀ (e : Ev) (s : State),
    let s0 := s.at e.t
    let es := (s.realm e.m).bil.effects
    let n := s.frameNo e.m
    (∀ (k : TileId) (f : Nat), nextStart s0 e.m k = some f → (s.realm e.m).bus.keeper = true → awaiting s0 e.m k f = false →
      (((imageAt s e.m f).2 = true ∧ n + 2 < (s.frame e.m).armed.elim 0 (·.frame)) → exec (.stagedRecordWrite e k) s = .next s0)
      ∧ ((imageAt s e.m f).2 = false ∨ (s.frame e.m).armed.elim 0 (·.frame) ≤ n + 2 →
        Answers (.stagedRecordWrite e k) s (fun t =>
          RealmAlone e.m s t ∧ MemBut e.m (symAddr (0x10 + k) 0 0) (symAddr (0x11 + k) 0 0) s t
            ∧ (∀ i, i ≠ k.val → t.tile e.m i = s.tile e.m i)
            ∧ ObjsBut e.m (o1A_EGRESS_POISON :: readKeys (0x10 + k.val)) s t
            ∧ t.frame e.m = { s.frame e.m with hrUntil := (t.frame e.m).hrUntil, direct := (t.frame e.m).direct }
            ∧ (t.realm e.m).bil.effects = es.map (fun x =>
                if x.rw then x
                else if x.frame = f then { x with tiles := k.val :: x.tiles }
                else if f < x.frame then { x with tiles := x.tiles.filter (· != k.val) } else x))))
    ∧ (es.any (·.moved) = true ∨ (s.frame e.m).hrMoved ≠ [] → (s.realm e.m).bus.keeper = true →
      Answers (.stampRewrite e) s (fun t =>
        RealmAlone e.m s t ∧ t.frameNo e.m = n
          ∧ (t.realm e.m).bil.effects.map (fun x => { x with tiles := [] }) = es.map (fun x =>
              { x with tiles := [], moved := false, frame := if x.moved = true ∧ x.frame ≤ n then n + 1 else x.frame })))
    ∧ (∀ x, es.filter (fun x => x.rw && !x.moved && decide (x.frame ≤ n)) = [x] → x.stamped = true → served s e.m = true →
      exec (.stampedWriteDue e) s = .next (putObject (s0.modBil e.m (fun b =>
        { b with effects := b.effects.filter (fun x => !(x.rw && !x.moved && decide (x.frame ≤ n))) })) e.m x.key x.value))

/-! ## Loading and SWAP (03) -/

/-- 128-bit writes of the stream window append 16 bytes each, in turn: the header, the section table, each section as its
last byte comes, and VERIFYING with the byte that makes TOTAL_LENGTH; a failed check fails the load with its code. A narrow write
fails it with STREAM_WIDTH, bytes past the end with OVERLENGTH; with no load in progress bytes are discarded.
Clauses that rest on the model's choices: log entry 24. -/
def Obligations.StreamWindow : Prop :=
  ∀ (e : Ev) (k : Nat) (s : State),
    let s0 := s.at e.t
    let m := e.m
    let ones : BitVec 16 := BitVec.allOnes 16
    (∀ d, d.length = 16 → loadState s m = 1 → Answers (.streamWindowWrite e k d ones) s (fun t =>
      let old := (s.frame m).stream.length
      let i := (s.frame m).stream ++ d
      let u := streamed s0 m d
      let head := if old < 128 ∧ 128 ≤ old + 16 then headerCheck i else none
      let table := if old < tableEnd i ∧ tableEnd i ≤ old + 16 ∧ 128 ≤ old then tableCheck i else none
      match head.or table with
      | some e => LoadFails m e.1 e.2 5 u t
      | none =>
        if old + 16 < 128 then t = u
        else
          match (if old + 16 < tableEnd i then (u, none) else takeSections u m i (sectionsDone i old (old + 16))) with
          | (v, some e) => LoadFails m e.1 e.2 5 v t
          | (v, none) =>
            if imgLength i ≤ old + 16 then
              loadState t m = 2 ∧ Becomes m [bankKey (inactive (s.frame m))]
                { v.realm m with frame := setBankSt (v.frame m) (inactive (v.frame m)) 2 } v t
            else t = v))
    ∧ (∀ a b, a.length % 16 = 0 → b.length % 16 = 0 → ∀ t, exec (.streamWindowWrite e k a ones) s = .next t →
        exec (.streamWindowWrite e k (a ++ b) ones) s = exec (.streamWindowWrite e k b ones) t)
    ∧ (∀ d be, loadState s m = 1 → be ≠ ones ∨ d.length % 16 ≠ 0 → Answers (.streamWindowWrite e k d be) s
        (LoadFails m 26 (s.onat m o14_LOAD_BYTES) 5 s0))
    ∧ (∀ d be, loadState s m = 2 → (be = ones → d.length = 16) → Answers (.streamWindowWrite e k d be) s
        (LoadFails m 12 (imgLength (s.frame m).stream) 5 s0))
    ∧ (∀ d be, loadState s m ≠ 1 → loadState s m ≠ 2 → exec (.streamWindowWrite e k d be) s = .next s0)

/-- LOAD_VERIFY admits an image that passes every check: its bank is ADMITTED and LOAD_DONE is raised; otherwise the load fails
with the code of the first check that fails. A stream without a byte for 1 s fails with TRUNCATED. At the tick of its frame an
armed SWAP makes the other bank ACTIVE and the first EMPTY, and every tile takes up the slots written for the new image.
Clauses that rest on the model's choices: log entries 18, 24. -/
def Obligations.LoadEndsAndSwap : Prop :=
  ∀ (e : Ev) (s : State),
    let s0 := s.at e.t
    let m := e.m
    let f := s.frame m
    let b := inactive f
    let i := f.stream
    let bad := (imageCheck i (runImg f) (fusedHash s.hub)).or (admitCheck i (s.onat m o12_T_ADM) (s.rate m))
    (loadState s m = 2 → bad = none → Answers (.loadVerify e) s (fun t =>
      Becomes m ([bankKey b, o14_PENDING_CRITICAL_STEPS, o14_LOAD_STATUS] ++ eventKeys)
          { s.realm m with frame := { setBankSt (setBankImg f b i) b 3 with wrote := [] } } s t
        ∧ t.oget m (bankKey b) = 3 ∧ t.oget m o14_PENDING_CRITICAL_STEPS = (imgCritical i : Int)
        ∧ t.oget m o14_LOAD_STATUS = (if s.hub.fuse.burned then 0 else 1) ∧ Raised m 0x1403 (bankKey b) s t
        ∧ (t.realm m).bus.pend.getLsbD 10 = true))
    ∧ (∀ x, loadState s m = 2 → bad = some x → Answers (.loadVerify e) s (LoadFails m x.1 x.2 5 s0))
    ∧ (loadState s m = 1 → f.lastByte + sec 1 ≤ s0.now → Answers (.truncated e) s
        (LoadFails m 11 (s.onat m o14_LOAD_BYTES) 5 s0))
    ∧ (∀ a, f.armed = some a → a.frame = f.number → loadState s m = 3 → Answers (.swapTakeEffect e) s (fun t =>
      let g := t.frame m
      RealmAlone m s t ∧ (t.realm m).bus.pend.getLsbD 9 = true
        ∧ g.active = b ∧ g.running = true ∧ g.k = 0 ∧ g.armed = none ∧ g.number = f.number
        ∧ g.swapFrame = some (a.frame, f.tickAt) ∧ g.swapHand = handoverHolds f ∧ bankSt g b = 4 ∧ bankSt g f.active = 0
        ∧ bankImg g b = bankImg f b
        ∧ ∀ k : TileId, (t.tile m k).slots = (s.tile m k).slotsNext ∧ (t.tile m k).sels = (s.tile m k).selsNext
            ∧ (t.tile m k).tasks = [] ∧ (ctxSlack (s.tile m k).ctx = true → (t.tile m k).ctx = .idle)
            ∧ (ctxSlack (s.tile m k).ctx = false → (t.tile m k).regs = (s.tile m k).regs ∧ (t.tile m k).pc = (s.tile m k).pc
                ∧ (t.tile m k).ctx = (s.tile m k).ctx)))

/-! ## Margin Governor and VCORE (02; 01; 18) -/

/-- REPLICA_FAILED counts a replica out; with more than four failures, or all four of a tile, the realm is GOVERNOR_DEGRADED and asks
for 800 mV, and a change of STATUS is a MARGIN interrupt. Of a realm that is DORMANT, or a replica that has failed already, it
changes nothing. MARGIN_EXHAUSTED clears, with a MARGIN interrupt, when t_g has stayed low for 10 s, and not before.
Clauses that rest on the model's choices: log entry 41. -/
def Obligations.ReplicasAndStatus : Prop :=
  ∀ (e : Ev) (s : State),
    let s0 := s.at e.t
    let m := e.m
    (∀ i : Fin 64, (s.realm m).mode ≠ .dormant → replicaBad s m i = false →
      let bits := s.onat m o12_REPLICA_FAILED + 2 ^ i.val
      let bad := (List.range 64).filter (fun j => bits / 2 ^ j % 2 == 1)
      let many : Prop := 4 < bad.length ∨ (bad.filter (fun j => j / 4 == i.val / 4)).length = 4
      Answers (.replicaFailed e i) s (fun t =>
        t.onat m o12_REPLICA_FAILED = bits ∧ (∀ j, j ≠ 1 → statusBit t m j = statusBit s m j)
          ∧ (¬many → t = s0.oput m o12_REPLICA_FAILED (bits : Int))
          ∧ (many → GovAlone m [o02_VCORE_SETPOINT] (o12_REPLICA_FAILED :: o12_STATUS :: mergeKeys) s t ∧ Merged t
              ∧ statusBit t m 1 = true ∧ t.onat m o12_VCORE_REQUEST = 800
              ∧ (statusBit s m 1 = false → (t.realm m).bus.pend.getLsbD 4 = true))))
    ∧ (∀ i : Fin 64, (s.realm m).mode = .dormant ∨ replicaBad s m i = true → exec (.replicaFailed e i) s = .next s0)
    ∧ (∀ t0, statusBit s m 0 = true → (s.realm m).gov.lowSince = some t0 → t0 + sec 10 ≤ s0.now →
      Answers (.marginExhaustedClear e) s (fun t =>
        t = (s0.oput m o12_STATUS ((s.onat m o12_STATUS - 1 : Nat) : Int)).irq m 4 ∧ statusBit t m 0 = false
          ∧ ∀ j, j ≠ 0 → statusBit t m j = statusBit s m j))
    ∧ ((∀ t0, (s.realm m).gov.lowSince = some t0 → s0.now < t0 + sec 10) → exec (.marginExhaustedClear e) s = .next s0)

/-- GOVERNOR_SAMPLE publishes the worst step time of the last second, t_g with the guard rounded up and T_ADM of at least
1,000 ps, and the realm's request: FIXED_REQUEST in MAINTENANCE, 800 mV after a Governor fault and until the first sweep has
ended, at least 25 mV above the setpoint while t_g is above its target; else it rises at once to the candidate, the lowest VCORE of
the grid at which the predicted step time with the guard meets the target, and falls towards it by at most 5 mV. A sample that a
sweep takes above the setpoint is left out of the window.
Clauses that rest on the model's choices: log entries 4, 41. -/
def Obligations.GovernorSamples : Prop :=
  ∀ (e : Ev) (l : List Nat) (temp : Int) (s : State) (w : Nat),
    let s0 := s.at e.t
    let m := e.m
    let recent := (s.realm m).gov.samples
    let above : Prop := (sweeper s).isSome = true ∧ setpoint s < s.hub.vout
    let kept := (s0.now, w) :: recent.filter (fun p => decide (s0.now < p.1 + sec 1))
    let worst := kept.foldl (fun a p => Nat.max a p.2) 0
    let tg := tgOf worst (s.onat m o12_GUARD)
    let req := s.onat m o12_VCORE_REQUEST
    (s.realm m).mode ≠ .dormant → worstOf s m l = some w →
    (above → Answers (.governorSample e l temp) s (fun t => (t.realm m).gov.samples = recent ∧ (t.realm m).gov.fit = (s.realm m).gov.fit))
    ∧ (¬above → tg ≠ 0xFFFFFFFF → Answers (.governorSample e l temp) s (fun t =>
      GovAlone m [o02_VCORE_SETPOINT] ([o12_T_WORST, o12_TG, o12_T_ADM, o12_STATUS, o12_DIE_TEMP] ++ mergeKeys ++ readyKeys) s t
        ∧ Merged t ∧ (t.realm m).gov.samples = kept ∧ (t.realm m).gov.temp = temp
        ∧ (telemetry s m = true → t.oget m o12_DIE_TEMP = temp)
        ∧ t.onat m o12_T_WORST = worst ∧ t.onat m o12_TG = tg ∧ t.onat m o12_T_ADM = Nat.max tg 1000
        ∧ (⟨s0.now, s.hub.vout, w, temp⟩ : FitPoint) ∈ (t.realm m).gov.fit
        ∧ (let fixed := s.onat m o12_FIXED_REQUEST
           let new := t.onat m o12_VCORE_REQUEST
           if (s.realm m).mode = .maintenance ∧ fixed ≠ 0 then new = fixed
           else if statusBit s m 1 = true then new = 800
           else if (s.realm m).gov.swept = false then new = 800
           else if 1000 * (20000 - s.onat m o12_SLACK_MARGIN) < tg * 20000 then new = Nat.max req (Nat.min 800 (setpoint s + 25))
           else req ≤ new + 5 ∧ ∀ c, vcoreGrid.find? (fits t m) = some c →
             (req ≤ c → new = c) ∧ (c < req → new = req ∨ new = Nat.max (req - 5) c))))

/-- A characterisation sweep starts when it is due and no realm sweeps, and ends with its points: STATUS shows it, SWEEP_REALM
names the realm, and the results are published; before the seventh sweep, and while DRIFT is not above 0, YEARS_TO_LIMIT is 0xFFFF.
Without the measurements of all its points a sweep has not ended.
A VOUT write that the regulator acknowledges takes VCORE at most 5 mV towards its target; the third transaction that fails
in a row, or a reported fault, ends the regulation: AVS is lost, the setpoint is held, and host source SUPPLY is pending.
Clauses that rest on the model's choices: log entries 4, 41. -/
def Obligations.SweepsAndRegulator : Prop :=
  (∀ (e : Ev) (s : State),
     let s0 := s.at e.t
     let m := e.m
     let g := (s.realm m).gov
     ((s.realm m).mode ≠ .dormant → sweeper s = none → sweepIsDue s0 m = true →
       Answers (.characterisationSweep e) s (fun t =>
         GovAlone m [o02_SWEEP_REALM] [o12_STATUS] s t ∧ statusBit t m 2 = true ∧ t.hget o02_SWEEP_REALM = (m.val : Int)
           ∧ (t.realm m).gov = { g with sweepStart := some (s0.now, setpoint s), sweepDue := some (s0.tbNs m + 86400 * 10 ^ 9) }))
     ∧ (∀ l t0 b, g.sweepStart = some (t0, b) → sweepMeasured s m b l = false → exec (.sweepEnd e l) s = .next s0)
     ∧ (∀ l t0 b, g.sweepStart = some (t0, b) → sweepMeasured s m b l = true → Answers (.sweepEnd e l) s (fun t =>
         let h := (t.realm m).gov
         GovAlone m [o02_SWEEP_REALM] [o12_STATUS, o12_T_NORM, o12_DRIFT, o12_YEARS_TO_LIMIT, o12_SWEEP_LAST] s t
           ∧ statusBit t m 2 = false ∧ t.hget o02_SWEEP_REALM = 0xFF ∧ h.sweepStart = none ∧ h.swept = true
           ∧ h.sweeps = g.sweeps + 1
           ∧ (∃ n, h.norms = ((s0.now, n) :: g.norms).take 30 ∧ t.oget m o12_T_NORM = (Config.quot 2 n 1000000 : Nat))
           ∧ t.oget m o12_DRIFT = driftOf h.norms ∧ t.oget m o12_SWEEP_LAST = tsInt (s0.tbNs m)
           ∧ (if g.sweeps < 6 ∨ t.oget m o12_DRIFT ≤ 0 then t.onat m o12_YEARS_TO_LIMIT = 0xFFFF
              else t.onat m o12_YEARS_TO_LIMIT ≤ 999)
           ∧ ∀ (i v w : Nat) (ps : List Nat), (sweepPoints b)[i]? = some v → l[i]? = some ps → worstOf s m ps = some w →
               (⟨s0.now, v, w, g.temp⟩ : FitPoint) ∈ h.fit)))
  ∧ (∀ (t : Time) (s : State),
       let s0 := s.at t
       let h := s.hub
       let v := voutTarget s0
       let n := h.avsFails + 1
       let fault := (({ s0 with hub := { h with avs := false } } : State).hirq 0)
       let failed := if 3 ≤ n then ({ s0 with hub := { h with avs := false, avsFails := 0 } } : State).hirq 0
         else { s0 with hub := { h with avsFails := n } }
       h.mode = .hub → h.avs = true →
       (h.voutAt + us 5 ≤ s0.now → h.vout ≠ v → ∃ x : Nat,
           exec (.avsVoutWrite t true) s = .next { s0 with hub := { h with vout := x, voutAt := s0.now, avsFails := 0 } }
             ∧ (h.vout < v → h.vout < x ∧ x ≤ v ∧ x ≤ h.vout + 5 ∧ (x = v ∨ x = h.vout + 5))
             ∧ (v < h.vout → x < h.vout ∧ v ≤ x ∧ h.vout ≤ x + 5 ∧ (x = v ∨ h.vout = x + 5)))
       ∧ (h.voutAt + us 5 ≤ s0.now → h.vout ≠ v → exec (.avsVoutWrite t false) s = .next failed)
       ∧ (∀ f, exec (.avsStatusRead t false f) s = .next failed)
       ∧ exec (.avsStatusRead t true true) s = .next fault
       ∧ exec (.avsStatusRead t true false) s = .next { s0 with hub := { h with avsFails := 0 } })

/-! ## Biluno operations that change the realm (12, and the chapters of the objects) -/

/-- LOAD_BEGIN makes the inactive bank LOADING with an empty stream; LOAD_ABORT fails the load with ABORTED and makes it EMPTY;
SWAP arms its frame, with the crossfade length and shape of that moment, and SWAP_CANCEL disarms it: the writes from that frame on are
staged again, in the image that serves them then.
Clauses that rest on the model's choices: log entry 24. -/
def Obligations.LoaderCalls : Prop :=
  ∀ (q : Req) (s : State),
    let m := q.m
    Acks (.loadBegin q) q (callOp m o14_LOAD_BEGIN []) s (fun u w =>
      let b := inactive (u.frame m)
      Becomes m [bankKey b, o14_LOAD_ERROR, o14_LOAD_ERROR_OFFSET, o14_LOAD_BYTES, o14_PENDING_CRITICAL_STEPS]
          { u.realm m with frame := { setBankSt (setBankImg (u.frame m) b []) b 1 with stream := [], wrote := [], lastByte := u.now } }
          u w
        ∧ loadState w m = 1 ∧ w.oget m (bankKey b) = 1 ∧ w.oget m o14_LOAD_ERROR = 0 ∧ w.oget m o14_LOAD_ERROR_OFFSET = 0
        ∧ w.oget m o14_LOAD_BYTES = 0 ∧ w.oget m o14_PENDING_CRITICAL_STEPS = 0 ∧ (w.realm m).bus.pend.getLsbD 10 = true)
    ∧ Acks (.loadAbort q) q (callOp m o14_LOAD_ABORT []) s (fun u w => LoadFails m 24 (u.onat m o14_LOAD_BYTES) 0 u w)
    ∧ (∀ f, f < 2 ^ 64 → Acks (.swap q f) q (callOp m o14_SWAP (toLe 8 f)) s (fun u w =>
        let a : Armed := ⟨f, u.onat m o5F_XF_LENGTH, u.onat m o5F_XF_SHAPE⟩
        RealmAlone m u w ∧ w.oget m o14_SWAP_ARMED = (f : Int) ∧ (w.frame m).armed = some a
          ∧ MemBut m (symAddr 0x10 0 0) (symAddr 0x20 0 0) u w ∧ ObjsBut m (o14_SWAP_ARMED :: stagingKeys) u w
          ∧ (u.frameNo m + 2 < f → Restaged m f { u.realm m with frame := { u.frame m with armed := some a } } u w)))
    ∧ Acks (.swapCancel q) q (callOp m o14_SWAP_CANCEL []) s (fun u w =>
        w.oget m o14_SWAP_ARMED = 18446744073709551615 ∧ (w.frame m).armed = none
          ∧ match (u.frame m).armed with
            | none => w = u.oput m o14_SWAP_ARMED 18446744073709551615
            | some a => Restaged m a.frame { u.realm m with frame := { u.frame m with armed := none } } u w)

/-- SAFE_ENTER starts the entry to SAFE, or keeps it until TAKEOVER has ended; SAFE_EXIT starts the return; POISON_CLEAR starts
the pass, or is done at once while no image runs; TALLY_UNMUTE and OVERRUN_CLEAR let a muted channel or tile return with a fade
from the next tick.
Clauses that rest on the model's choices: log entries 27, 50, 74. -/
def Obligations.OutputCalls : Prop :=
  ∀ (q : Req) (s : State),
    let m := q.m
    Acks (.safeEnter q) q (callOp m o1A_SAFE_ENTER []) s (fun u w =>
      w = u.modRealm m (fun r =>
        { r with safeDue := some 1, trans := if r.mode = .takeover then r.trans else some ⟨.safe, false, false, u.now⟩ }))
    ∧ Acks (.safeExit q) q (callOp m o1A_SAFE_EXIT []) s (fun u w =>
        let back := if (u.realm m).safeFrom = .active ∧ partnerTook u m = true then .standby else (u.realm m).safeFrom
        w = u.modRealm m (fun r => { r with trans := some ⟨back, false, false, u.now⟩ }))
    ∧ Acks (.poisonClear q) q (callOp m o1A_POISON_CLEAR []) s (fun u w =>
        if (u.frame m).running = true then
          w = (u.modMemory m (fun x => { x with clearing := some u.now })).oput m o1A_POISON_CLEAR_STATE 1
        else Becomes m ([o1A_POISON_CLEAR_STATE, o1A_POISON_CLEARED] ++ eventKeys) (u.realm m) u w
          ∧ w.oget m o1A_POISON_CLEAR_STATE = 2 ∧ w.oget m o1A_POISON_CLEARED = 0 ∧ Raised m 0x1A04 o1A_POISON_CLEARED u w)
    ∧ (∀ c, c < 512 ∨ (0x1000 ≤ c ∧ c < 0x1200) → Acks (.tallyUnmute q c) q ⟨6, 0, objOid m ⟨0x1A, 0x1000 + c, 2⟩, []⟩ s (fun u w =>
        let was := (u.chan m c).muted.closed
        let n := u.onat m o1A_TALLY_MUTED_CHANNELS
        Becomes m [chanKey 0x1A c 1, o1A_TALLY_MUTED_CHANNELS] { u.realm m with out := (w.realm m).out } u w
          ∧ (∀ d, d ≠ c → w.chan m d = u.chan m d)
          ∧ w.chan m c = { u.chan m c with
              faults := [], muted := if was then Gate.fading false (nextTick u m) else (u.chan m c).muted }
          ∧ w.onat m o1A_TALLY_MUTED_CHANNELS = (if was then n - 1 else n)
          ∧ (was = true → w.oget m (chanKey 0x1A c 1) = 0)))
    ∧ (∀ k : TileId, Acks (.overrunClear q k) q (callOp m (o12_OVERRUN_CLEAR + 16 * k.val) []) s (fun u w =>
        if u.onat m (o12_OVERRUN_MUTED + 16 * k.val) = 1 then
          w = (u.oput m (o12_OVERRUN_MUTED + 16 * k.val) 0).modOut m (fun o =>
            { o with tiles := tput Gate.open o.tiles k.val (Gate.fading false (nextTick u m)) })
        else w = u))

/-- MBIST_START ends the running image and marks the self-test RUNNING over its banks, deep banks ON; ERR_INJECT flips a bit of
each stored symbol named, without a new code; COUNT_CLEAR clears the error counts of every bank; a write of POWER_STATE takes a
deep bank towards its state, a bank leaves ON at once, and one from OFF to RETAIN goes to ON first.
Clauses that rest on the model's choices: log entries 25, 29. -/
def Obligations.MemoryCalls : Prop :=
  ∀ (q : Req) (s : State),
    let m := q.m
    (∀ mask, mask < 256 → Acks (.mbistStart q mask) q (callOp m o18_MBIST_START (toLe 1 mask)) s (fun u w =>
      RealmAlone m u w ∧ w.oget m o18_MBIST_STATE = 1 ∧ (w.realm m).memory.mbistMask = mask
        ∧ (w.realm m).memory.before = (u.realm m).memory.deep ∧ (w.frame m).running = false ∧ (w.frame m).stA = 0
        ∧ (w.frame m).stB = 0 ∧ (w.frame m).armed = none
        ∧ (∀ k : TileId, (w.tile m k).ctx = .idle ∧ (w.tile m k).flight = [])
        ∧ (mask / 16 % 2 = 1 → ∀ b, b < 64 → (w.realm m).deepPow b = ⟨0, none, false⟩ ∧ w.oget m (o18_POWER_STATE + 16 * (0x40 + b)) = 0)
        ∧ (mask / 16 % 2 = 0 → ∀ b, (w.realm m).deepPow b = (u.realm m).deepPow b)))
    ∧ (∀ bank vec syms, bank < 256 → vec < 2 ^ 32 → syms < 2 ^ 32 →
      Acks (.errInject q bank vec syms) q (callOp m o18_ERR_INJECT (toLe 1 bank ++ toLe 4 vec ++ toLe 4 syms)) s (fun u w =>
        w = u.setMem m (w.mem m)
          ∧ ∀ a, rdSym (w.mem m) a =
              if ∃ j, j < 23 ∧ a = symAddr bank vec j ∧ syms / 2 ^ j % 2 = 1 then rdSym (u.mem m) a ^^^ 1 else rdSym (u.mem m) a))
    ∧ Acks (.countClear q) q (callOp m o18_COUNT_CLEAR []) s (fun u w =>
        let keys := (List.range 0x84).flatMap (fun b => [o18_CE_COUNT + 16 * b, o18_UE_COUNT + 16 * b, o18_LAST_ERROR + 16 * b])
        w.realm m = { u.realm m with objs := (w.realm m).objs } ∧ OnlyRealm m u w ∧ w.mems = u.mems ∧ ObjsBut m keys u w
          ∧ ∀ k ∈ keys, w.oget m k = 0)
    ∧ (∀ b v, b < 64 → v < 256 →
      Acks (.powerStateWrite q (0x40 + b) v) q (writeOp m ⟨0x18, 0x140 + b, 6⟩ (toLe 1 v) none) s (fun u w =>
        let d := (u.realm m).deepPow b
        (∀ j, j ≠ b → (w.realm m).deepPow j = (u.realm m).deepPow j)
          ∧ w = u.modMemory m (fun x => { x with deep := (w.realm m).memory.deep })
          ∧ (d.st = v ∧ d.target = none → (w.realm m).deepPow b = d)
          ∧ (v = 0 → d.st = 1 → d.target = none → (w.realm m).deepPow b = ⟨1, some (0, u.now + us 10), false⟩)
          ∧ (v = 0 → d.st = 2 → d.target = none → (w.realm m).deepPow b = ⟨2, some (0, u.now + us 120), false⟩)
          ∧ (v = 1 → d.st = 2 → (w.realm m).deepPow b = ⟨2, some (0, u.now + us 120), true⟩)
          ∧ (v = 2 → d.st = 1 → (w.realm m).deepPow b = ⟨1, some (2, u.now + us 2), false⟩)
          ∧ (v ≠ 0 → d.st = 0 → (w.realm m).deepPow b = ⟨v, some (v, u.now + us 2), false⟩)))

/-- MODE_REQUEST starts the transition to its mode, and is without effect for the mode that the realm is in; COUNTERS_CLEAR
waits for the next tick; TAKE is kept with the frame of its acceptance; PHASE_ADJUST starts a pull at PULL_RATE, within PULL_RANGE; TIME_SET sets the timebase
at the next crystal period. LL_QUERY answers the latency of a path between its nodes and changes nothing.
Clauses that rest on the model's choices: log entries 40, 43, 50, 52, 64. -/
def Obligations.RealmCalls : Prop :=
  ∀ (q : Req) (s : State),
    let m := q.m
    (∀ v, v < 256 → Acks (.modeRequest q v) q (callOp m o10_MODE_REQUEST (toLe 1 v)) s (fun u w =>
      if v = modeCode (u.realm m).mode then w = u
      else ∃ x, modeCode x = v ∧ w = u.modRealm m (fun r => { r with trans := some ⟨x, false, false, u.now⟩ })))
    ∧ Acks (.countersClear q) q (callOp m o11_COUNTERS_CLEAR []) s (fun u w => w = u.modBil m (fun b => { b with clear := true }))
    ∧ Acks (.take q) q (callOp m o30_TAKE []) s (fun u w =>
        if (u.realm m).mode = .standby ∧ (u.realm m).pair.takeReq = none then
          w = u.modRealm m (fun r => { r with pair := { r.pair with takeReq := some (u.frameNo m) } })
        else w = u)
    ∧ (∀ v, -(2 ^ 31) ≤ v → v < 2 ^ 31 → Acks (.phaseAdjust q v) q (callOp m o22_PHASE_ADJUST (wireMod 4 v)) s (fun u w =>
        let a := (u.realm m).clock
        let c := (w.realm m).clock
        let range : Int := u.onat m o22_PULL_RANGE
        OnlyRealm m u w ∧ w.mems = u.mems ∧ ObjsBut m [o22_STEERING] u w
          ∧ w.realm m = { u.realm m with objs := (w.realm m).objs, clock := { a with adjust := c.adjust, div := c.div } }
          ∧ c.adjust = (if v = 0 then none else some (u.now, v * 10 ^ 15)) ∧ c.div = divOf a.rate (w.oget m o22_STEERING)
          ∧ (a.pulling = false → w.oget m o22_STEERING
              = Max.max (-range) (Min.min range (a.steer - v.sign * (u.onat m o22_PULL_RATE : Int))))))
    ∧ (∀ sec ns, sec < 2 ^ 48 → ns < 2 ^ 32 → Acks (.timeSet q sec ns) q (callOp m o24_TIME_SET (toLe 6 sec ++ toLe 4 ns)) s (fun u w =>
        RealmAlone m u w ∧ w.mems = u.mems
          ∧ (w.realm m).tb = ⟨(sec * 1000000000 + ns) * 4294967296, u.now + 20346, (u.realm m).tb.rate⟩
          ∧ w.oget m o24_PTP_TIME = tsInt (sec * 1000000000 + ns)
          ∧ (tbState u m ≠ 4 → (w.realm m).clock = (u.realm m).clock)
          ∧ (tbState u m = 4 → candState w m 0 ≠ 2 ∧ candState w m 0 ≠ 3)))
    ∧ (∀ a b, a < 65536 → b < 65536 →
      CarriedOut (.llQuery q a b) q (callOp m (okey 0x66 1 0) (toLe 2 a ++ toLe 2 b)) s (fun u w x =>
        w = { u with free := w.free }
          ∧ ∃ n v, v ∈ lightPaths u m n ((List.range (lightCount u m)).map (lightAt (lightBytes u m))) b 641 [a] a 0
              ∧ x = resultOp (oidOf m (okey 0x66 1 0)) (toLe 4 v)))

/-- The device's commands: REALM_START brings the realm up, or waits for its initialisation; REALM_STOP starts the stop;
REALM_RESET resets; DEV_MODE_REQUEST keeps the request for POWER_DOWN_START; KEY_HASH_BURN starts the burn; IDENTITY_PROVE
answers the signature of the challenge and the serial number.
Clauses that rest on the model's choices: log entries 8, 9, 46, 47. -/
def Obligations.DeviceCalls : Prop :=
  ∀ (q : Req) (s : State), q.sess = hostSession →
    let m := q.m
    let ack := fun k => ackOp (15 * 268435456 + k) noFrame
    HubCarriesOut (.realmStart q) q.t (callOp m (o02_REALM_START + 16 * m.val) []) s (fun u w x =>
      x = ack (o02_REALM_START + 16 * m.val)
        ∧ if (u.realm m).memory.initSince.isSome = true then w = u.modMemory m (fun x => { x with startWaits := true })
          else w = bringUp u m ∧ (w.realm m).mode = .bringUp ∧ (w.realm m).bringUpAt = u.now ∧ pllState w m = 1
            ∧ (w.realm m).bus.keeper = false ∧ (w.realm m).bus.keeperStart = some u.now ∧ (w.frame m).ticked = false
            ∧ (w.frame m).running = false)
    ∧ HubCarriesOut (.realmStop q) q.t (callOp m (o02_REALM_STOP + 16 * m.val) []) s (fun u w x =>
      x = ack (o02_REALM_STOP + 16 * m.val)
        ∧ w = (if (u.realm m).mode = .dormant then u
            else u.modRealm m (fun r => { r with trans := some ⟨.dormant, true, false, u.now⟩ })).irq m 25)
    ∧ HubCarriesOut (.realmReset q) q.t (callOp m (o02_REALM_RESET + 16 * m.val) []) s (fun u w x =>
      x = ack (o02_REALM_RESET + 16 * m.val) ∧ w = realmReset u m
        ∧ (w.realm m).mode = .dormant ∧ (w.realm m).parked = false ∧ (w.realm m).trans = none
        ∧ (w.frame m).stA = 0 ∧ (w.frame m).stB = 0 ∧ (∀ k, w.tile m k = Tile.reset)
        ∧ (∀ b, ((w.realm m).deepPow b).st = 2) ∧ (w.realm m).out.cut = true
        ∧ (∀ k, k ≠ o12_VCORE_MERGED → w.oget m k = realmDflt m k))
    ∧ (∀ v, v < 256 → HubCarriesOut (.devModeRequest q.t v) q.t (callOp 0 o02_DEV_MODE_REQUEST (toLe 1 v)) s (fun u w x =>
        x = ack o02_DEV_MODE_REQUEST
          ∧ w = if v = 17 then u.modHub (fun h => { h with power := { h.power with request := some (0, u.now) } })
              else if v = 18 then u.modHub (fun h => { h with power := { h.power with request := some (2, u.now) } }) else u))
    ∧ (∀ b, b.length = 32 → HubCarriesOut (.keyHashBurn q.t b) q.t (callOp 0 o01_KEY_HASH_BURN b) s (fun u w x =>
        x = ack o01_KEY_HASH_BURN
          ∧ w = u.modHub (fun h => { h with fuse := { h.fuse with burn := some (leBytes b, u.now) } })))
    ∧ (∀ b, b.length = 32 → HubCarriesOut (.identityProve q.t b) q.t (callOp 0 o01_IDENTITY_PROVE b) s (fun u w x =>
        w = u ∧ x = resultOp (15 * 268435456 + o01_IDENTITY_PROVE)
          (toBe 64 (Config.deviceSignature (beBytes (sha256 (b ++ toLe 16 Config.deviceSerial)))))))

/-- A write of ENABLE starts a port's start or stop sequence; MUTE_PIN_ENABLE makes a held pin mute or releases it; REF_PATH
starts a new acquisition; the auxiliary synthesisers publish their actual frequency; FIXED_REQUEST becomes the realm's request;
PAIR_MODE starts the pair anew. SAMPLE_RATE takes its value; TICK_OFFSET does, with a pull at PULL_RATE while a candidate other than a
LEAD port is selected.
Clauses that rest on the model's choices: log entries 35, 41, 42, 43. -/
def Obligations.PortAndClockWrites : Prop :=
  ∀ (q : Req) (s : State),
    let m := q.m
    (∀ p v, p < 16 → v < 256 → Acks (.portEnable q p v) q (writeOp m ⟨0x20, 0x100 + p, 0⟩ (toLe 1 v) none) s (fun u w =>
      let st := portState u m p
      let master := isMaster u m p
      if v = 1 ∧ st ≠ 0 then w = u
      else Becomes m [o20_ENABLE + 16 * p, o20_CONFIG_ERROR + 16 * p, o20_LATENCY_FRAMES + 16 * p, o20_STATE + 16 * p]
          { u.realm m with ports := (w.realm m).ports } u w
        ∧ (∀ j, j ≠ p → w.port m j = u.port m j) ∧ w.onat m (o20_ENABLE + 16 * p) = v
        ∧ (v = 1 → portState w m p = (if master then 1 else 2) ∧ w.oget m (o20_CONFIG_ERROR + 16 * p) = 0
            ∧ w.oget m (o20_LATENCY_FRAMES + 16 * p) = (if master then 2 else 4))
        ∧ (v = 0 → portState w m p = (if st = 3 ∨ st = 4 then 4 else if st = 1 then 1 else 0)
            ∧ (st = 1 → (w.port m p).stop = true) ∧ (st = 3 → (w.port m p).outFade = some (false, 0)))))
    ∧ (∀ v, v < 256 → Acks (.mutePinEnableWrite q v) q (writeOp m ⟨0x20, 0, 2⟩ (toLe 1 v) none) s (fun u w =>
        let o := (u.realm m).out
        let muted := u.onat m o20_MUTE_PIN_STATE
        let x := u.oput m o20_MUTE_PIN_ENABLE v
        if v = 0 ∧ muted = 1 then
          w = ((x.modOut m (fun o => { o with pin := Gate.fading false (nextTick u m) })).oput m o20_MUTE_PIN_STATE 0).irq m 0
        else if v = 1 ∧ o.pinLow = true ∧ u.now < o.pinRose ∧ muted = 0 then PinMuted m x w
        else w = x))
    ∧ (∀ v, v < 256 → Acks (.sampleRateWrite q v) q (writeOp m ⟨0x22, 0, 0⟩ (toLe 1 v) none) s (fun u w =>
        w = u.oput m o22_SAMPLE_RATE v))
    ∧ (∀ v, v < 256 → Acks (.refPathWrite q v) q (writeOp m ⟨0x22, 0, 1⟩ (toLe 1 v) none) s (fun u w =>
        LockLost m (u.oput m o22_REF_PATH v) w))
    ∧ (∀ v, -(2 ^ 31) ≤ v → v < 2 ^ 31 →
      Acks (.tickOffsetWrite q v) q (writeOp m ⟨0x22, 0x200, 0⟩ (wireMod 4 v) none) s (fun u w =>
        let a := (u.realm m).clock
        let c := (w.realm m).clock
        let sel := selected u m
        let x := wrapPhase (pulsePs u m sel) (u.oget m o22_PHASE_ERROR - (v - u.oget m o22_TICK_OFFSET) * 1000)
        if 3 ≤ sel ∨ v = u.oget m o22_TICK_OFFSET then w = u.oput m o22_TICK_OFFSET v
        else OnlyRealm m u w ∧ w.mems = u.mems ∧ ObjsBut m [o22_TICK_OFFSET, o22_PHASE_ERROR, o22_STEERING] u w
          ∧ w.oget m o22_TICK_OFFSET = v ∧ w.oget m o22_PHASE_ERROR = x
          ∧ w.oget m o22_STEERING = limitY u m (a.steer + x.sign * (u.onat m o22_PULL_RATE : Int))
          ∧ w.realm m = { u.realm m with
              objs := (w.realm m).objs,
              clock := { a with pulling := true, adjust := c.adjust, div := divOf a.rate (w.oget m o22_STEERING) } }))
    ∧ (∀ a v, a < 2 → v < 256 → Acks (.auxEnableWrite q a v) q (writeOp m ⟨0x22, 0x400 + a, 0⟩ (toLe 1 v) none) s (fun u w =>
        let x := (u.oput m (o22_AUX_ENABLE + 16 * a) v).modRealm m (fun r =>
          { r with clock := { r.clock with auxOn := tput 0 r.clock.auxOn a u.now } })
        w = if v = 1 then x.oput m (o22_AUX_ACTUAL + 16 * a)
              (rne (Config.vcoHz * 1000 * 2 ^ 24 : Nat) (auxDiv (u.onat m (o22_AUX_FREQ + 16 * a)))) else x))
    ∧ (∀ v, v < 65536 → Acks (.fixedRequestWrite q v) q (writeOp m ⟨0x12, 0xB, 0⟩ (toLe 2 v) none) s (fun u w =>
        if v = 0 then w = u.oput m o12_FIXED_REQUEST 0
        else GovAlone m [o02_VCORE_SETPOINT] (o12_FIXED_REQUEST :: mergeKeys) u w ∧ Merged w
          ∧ w.onat m o12_FIXED_REQUEST = v ∧ w.onat m o12_VCORE_REQUEST = v))
    ∧ (∀ v, v < 256 → Acks (.pairModeWrite q v) q (writeOp m ⟨0x30, 0, 0⟩ (toLe 1 v) none) s (fun u w =>
        w = (u.oput m o30_PAIR_MODE v).modPair m (fun p => { p with since := u.now, lost := false, due := [], heard := none })))

/-- A write of LINK_ENABLE with 0 takes the link down and resets its DMA channel; PTP_PROFILE loads its six objects; NET_BANKS
switches its banks ON; ENABLE starts a stream or makes it stop; a write of BILUNO_PORT closes every session, one of a key slot
every session of that slot.
Clauses that rest on the model's choices: log entries 38, 56. -/
def Obligations.NetworkWrites : Prop :=
  ∀ (q : Req) (s : State),
    let m := q.m
    (∀ p v, p < 2 → v < 256 → Acks (.linkEnableWrite q p v) q (writeOp m ⟨0x24, 0x100 + p, 0⟩ (toLe 1 v) none) s (fun u w =>
      let link := u.onat m (o24_LINK_STATE + 16 * p)
      let r := u.realm m
      RealmAlone m u w ∧ w.mems = u.mems ∧ w.onat m (o24_LINK_ENABLE + 16 * p) = v
        ∧ w.onat m (o24_LINK_STATE + 16 * p) = (if v = 0 then 0 else link)
        ∧ (v = 0 → tget 0 (w.realm m).bus.resetting (2 + 10 * p) = u.now + 1
            ∧ (w.realm m).bus.waiting = r.bus.waiting.filter (fun x => x.master != 2 + 10 * p))
        ∧ (u.onat m o24_PTP_PORT ≠ 2 →
            ObjsBut m ([o24_LINK_ENABLE + 16 * p, o24_LINK_STATE + 16 * p] ++ readyKeys) u w
              ∧ (v ≠ 0 → w.realm m = { r with objs := (w.realm m).objs }))))
    ∧ (∀ v, v < 256 → Acks (.ptpProfileWrite q v) q (writeOp m ⟨0x24, 0, 1⟩ (toLe 1 v) none) s (fun u w =>
        w = { u with realms := w.realms } ∧ (∀ j, j ≠ m → w.realm j = u.realm j)
          ∧ w.realm m = { u.realm m with objs := (w.realm m).objs }
          ∧ ObjsBut m [o24_PTP_PROFILE, o24_PTP_DOMAIN, o24_LOG_SYNC, o24_LOG_ANNOUNCE, o24_LOG_DELAY_REQ,
              o24_ANNOUNCE_TIMEOUT] u w
          ∧ w.oget m o24_PTP_PROFILE = v ∧ w.oget m o24_PTP_DOMAIN = (if v = 0 then 0 else 127) ∧ w.oget m o24_LOG_SYNC = -3
          ∧ w.oget m o24_LOG_ANNOUNCE = (if v = 0 then 1 else -2) ∧ w.oget m o24_LOG_DELAY_REQ = (if v = 0 then 0 else -3)
          ∧ w.oget m o24_ANNOUNCE_TIMEOUT = 3))
    ∧ (∀ v, v < 256 → Acks (.netBanksWrite q v) q (writeOp m ⟨0x24, 1, 14⟩ (toLe 1 v) none) s (fun u w =>
        w = (u.oput m o24_NET_BANKS v).modMemory m (fun x => { x with deep := (w.realm m).memory.deep })
          ∧ v ≤ 64
          ∧ (∀ b, b < 64 - v → (w.realm m).deepPow b = (u.realm m).deepPow b)
          ∧ (∀ b, 64 - v ≤ b → b < 64 →
              (w.realm m).deepComing b = true ∨ (w.realm m).deepPow b = (u.realm m).deepPow b ∧ (u.realm m).deepOn b = true)))
    ∧ (∀ tx k v, k < 64 → v < 256 →
      Acks (.streamEnable q tx k v) q (writeOp m ⟨0x26, (if tx then 0x300 else 0x100) + k, 0⟩ (toLe 1 v) none) s (fun u w =>
        let en := (if tx then o26_300_ENABLE else o26_ENABLE) + 16 * k
        let st := (if tx then o26_400_STATE else o26_STATE) + 16 * k
        let er := (if tx then o26_400_ERROR else o26_ERROR) + 16 * k
        if u.onat m en = 1 ↔ v = 1 then w = u
        else
          Becomes m [en, st, er] { u.realm m with net := (w.realm m).net } u w ∧ w.onat m en = v
            ∧ (v = 1 → w.onat m st = 1 ∧ w.onat m er = 0)
            ∧ (v = 0 → w.onat m st = u.onat m st ∧ w.oget m er = u.oget m er
                ∧ if tx then (w.txst m k).stop = true else (w.rxst m k).stop = true)))
    ∧ (∀ v, v < 65536 → Acks (.bilunoPortWrite q v) q (writeOp m ⟨0x28, 0, 0⟩ (toLe 2 v) none) s (fun u w =>
        w = (u.oput m o28_BILUNO_PORT v).modBil m (fun b =>
          { b with sessions := [], subs := b.subs.filter (fun y => !(b.sessions.map (·.id)).contains y.sess) })))
    ∧ (∀ k el v, k < 8 → el < 2 → Acks (.keyWrite q ⟨0x28, 0x100 + k, el⟩ v) q (writeOp m ⟨0x28, 0x100 + k, el⟩ v none) s (fun u w =>
        let key := o28_KEY + 16 * k + el
        let gone := ((u.realm m).bil.sessions.filter (fun x => x.slot == k)).map (·.id)
        w = (u.oput m key (w.oget m key)).modBil m (fun b =>
            { b with sessions := b.sessions.filter (fun x => x.slot != k),
                     subs := b.subs.filter (fun y => !gone.contains y.sess) })
          ∧ (el = 1 ∨ v.length = 32 → w.onat m key = leBytes v)))

/-- A write to an object without a staged record takes effect at once, or at its frame with WRITE_AT. A write to a ramped or
staged object is kept with its start frame, which the ACK names: at least three frames ahead and within the bound of its class,
or the frame that WRITE_AT gives.
Clauses that rest on the model's choices: log entries 58, 60. -/
def Obligations.WritesTakeEffect : Prop :=
  ∀ (q : Req) (obj : ObjId) (v : List Byte) (ramp : Option Nat) (r : ObjRow) (s : State),
    let m := q.m
    let oid := objOid m obj
    oidRow oid = some r → (∀ t, ramp = some t → t < 2 ^ 32) →
    let kept := fun (u w : State) (f : Nat) (stamped : Bool) (o : Op) =>
      let k := homeKey u m (oidKey oid)
      SlotsTaken m stagingKeys { u.realm m with bil := { (u.realm m).bil with effects :=
            (u.realm m).bil.effects ++ [⟨k, newValue u m k r o, f, ramp, stamped, !staged r, r.p0, [], u.now, false⟩] } } u w
    (∀ c, c = .write q obj v ramp ∨ c = .gainChange q obj v ramp
        ∨ ramp = none ∧ (c = .sendTapWrite q obj v ∨ c = .selectorWrite q obj v) →
      let o := writeOp m obj v ramp
      (staged r = false → Acks c q o s (fun u w =>
        let k := homeKey u m (oidKey oid)
        w = putObject u m k (newValue u m k r o)
          ∧ ((keyPage k ∉ [0x12, 0x18, 0x1A, 0x20, 0x22, 0x24, 0x26, 0x28, 0x30] ∧ 0x10 ≤ keyPage k ∧ ∀ n, r.ty ≠ .blob n) →
              w = u.oput m k (unwire r.ty v))))
      ∧ (staged r = true → CarriedOut c q o s (fun u w x =>
          ∃ f, u.frameNo m + 3 ≤ f ∧ f ≤ u.frameNo m + boundFloor u m r.p0 ∧ x = ackOp oid f ∧ kept u w f false o)))
    ∧ (∀ f, f < 2 ^ 64 →
      let o := valueOp 3 (toLe 8 f) oid v ramp
      CarriedOut (.writeAt q obj f v ramp) q o s (fun u w x => x = ackOp oid f ∧ kept u w f true o))

/-- READ answers the value and changes nothing. SUBSCRIBE answers a number that no subscription has, OPEN a session number that
no session has; UNSUBSCRIBE and CLOSE end them. STREAM appends its data to the image, and the reply gives the offset that
the loader expects next.
Clauses that rest on the model's choices: log entries 2, 56, 57, 62. -/
def Obligations.SessionCalls : Prop :=
  ∀ (q : Req) (s : State),
    let m := q.m
    (∀ obj start count, start < 65536 → count < 65536 →
      let oid := objOid m obj
      CarriedOut (.read q obj start count) q ⟨1, 0, oid, toLe 2 start ++ toLe 2 count⟩ s (fun u w x =>
        w = u ∧ ∃ r, oidRow oid = some r
          ∧ let b := objBytes u m (decide (q.sess = hostSession)) (oidKey oid) r.ty
            x = resultOp oid (match r.ty with
              | .blob _ => toLe 2 start ++ toLe 2 count ++ slice b start count
              | .arr _ => toLe 2 start ++ toLe 2 count ++ slice b (4 * start) (4 * count)
              | _ => b)))
    ∧ (∀ obj kind rate span, kind < 256 → rate < 65536 → span < 65536 →
      let oid := if kind = 2 ∧ obj = ⟨0, 0, 0⟩ then 0 else objOid m obj
      CarriedOut (.subscribe q obj kind rate span) q ⟨4, 0, oid, toLe 1 kind ++ [0] ++ toLe 2 rate ++ toLe 2 span ++ [0, 0]⟩ s
        (fun u w x => ∃ y : Sub, y.sess = q.sess ∧ y.kind = kind ∧ y.page = keyPage (oidKey oid) ∧ y.index = keyIndex (oidKey oid)
          ∧ y.elem = keyElem (oidKey oid) ∧ y.span = span ∧ y.rate = rate ∧ y.lastAt = u.now ∧ y.queue = []
          ∧ (∀ z ∈ (u.realm m).bil.subs, z.id ≠ y.id) ∧ x = resultOp oid (toLe 2 y.id)
          ∧ w = u.modBil m (fun b => { b with subs := b.subs ++ [y], nextSub := y.id % 65535 + 1 })))
    ∧ (∀ id, id < 65536 → Acks (.unsubscribe q id) q ⟨5, 0, 0, toLe 2 id⟩ s (fun u w =>
        w = u.modBil m (fun b => { b with subs := b.subs.filter (fun y => y.id != id) })))
    ∧ (∀ slot nonce origin, slot < 256 → nonce.length = 16 → (s.realm m).bil.sessions.length < 64 →
      CarriedOut (.opOpen q slot nonce origin) q ⟨7, 0, 0, toLe 1 slot ++ [0, 0, 0] ++ nonce⟩ s (fun u w x =>
        ∃ (y : Session) (server : List Byte), server.length = 16 ∧ y.id ≠ 0 ∧ y.id < 0xFFFFFFFF
          ∧ (∀ z ∈ (u.realm m).bil.sessions, z.id ≠ y.id) ∧ y.slot = slot ∧ y.tagged = (slot != 0xFF)
          ∧ y.role = (if slot = 0xFF then u.onat m o28_UNAUTH_ROLE else slotRole u m slot)
          ∧ y.sk = sessionKey (slotKey u m slot) nonce server y.id ∧ y.high = 0 ∧ y.replies = [] ∧ y.notifySeq = 0
          ∧ y.origin = origin
          ∧ w = { u.modBil m (fun b => { b with sessions := b.sessions ++ [y] }) with free := w.free }
          ∧ x = resultOp 0 (toLe 4 y.id ++ toLe 1 y.role ++ [0, 0, 0] ++ server)))
    ∧ Acks (.close q) q ⟨8, 0, 0, []⟩ s (fun u w =>
        w = if q.sess = hostSession then u
          else u.modBil m (fun b => { b with sessions := b.sessions.filter (fun x => x.id != q.sess),
                                             subs := b.subs.filter (fun y => y.sess != q.sess) }))
    ∧ (∀ offset d, offset < 2 ^ 32 → CarriedOut (.stream q offset d) q ⟨9, 0, 0, toLe 4 offset ++ d⟩ s (fun u w x =>
        loadState u m = 1 ∧ u.onat m o14_LOAD_BYTES = offset ∧ w = streamBytes u m d true
          ∧ x = ackOp (w.onat m o14_LOAD_BYTES) noFrame))

/-! ## The realm bus (07, 14) -/

/-- A read delivers each vector's words, zero with the POISON indication where a lane fails its check. A write replaces whole
lanes, a narrow write merges bytes into the lanes that it covers in part. An atomic adds, adds with saturation, or swaps
in the selected lanes and answers the words before. A tile's store of the running step to the vector takes effect first. -/
def Obligations.BusReachesMemory : Prop :=
  ∀ (e : Ev) (k addr : Nat) (s : State), MasterFree s e.m k →
    let m := e.m
    let c := s.mem m
    let after := fun bank vec a => portAccess (s.at e.t) m bank vec a
    let quiet : Prop := ∀ i, i < 16 → (s.tile m i).opened = false
    let dest := fun j w => place (s.realm m) k (beatAddr addr j) w
    (quiet → ∀ bank vec a, after bank vec a = s.at e.t)
    ∧ (∀ bank vec, dest 0 false = .mem bank vec →
      Answers (.busRead e k addr 1) s (fun t =>
        let p := after bank vec .read
        let c := p.mem m
        BusAlone m (o1A_EGRESS_POISON :: readKeys bank) p t ∧ t.frame m = s.frame m
          ∧ t.mem m = afterRead c bank vec ∧ Delivered m k (getVec c bank vec) bank p t))
    ∧ (quiet → ∀ n, 1 ≤ n → n ≤ 16 → (∀ j, j < n → ∃ b v, dest j false = .mem b v ∧ CleanVec c b v) →
      exec (.busRead e k addr n) s = .next (answer (s.at e.t) m k
        ⟨(List.range n).map (fun j => match dest j false with
            | .mem b v => (getVec c b v).1.map (·.data)
            | _ => Quad.all 0), List.replicate n 0, false⟩))
    ∧ (quiet → ∀ vecs, vecs.length ≤ 16 → (∀ x ∈ vecs, x.2 = 0xF) → (∀ j, j < vecs.length → ∃ b v, dest j true = .mem b v) →
      Answers (.busWrite e k addr vecs) s (fun t =>
        BusAlone m [] s t ∧ (k ≠ 0 → t.frame m = s.frame m) ∧ answerOf t m k = BusAns.none
          ∧ t.mem m = (List.range vecs.length).foldl (fun c j => match dest j true with
              | .mem b v => putVec c b v ((vecs.getD j (Quad.all 0, 0)).1.map (freshLane b))
              | _ => c) c))
    ∧ (∀ d be bank vec, dest 0 true = .mem bank vec →
      Answers (.narrowWrite e k addr d be) s (fun t =>
        let p := after bank vec (.write (lanesOf d) be)
        let c := p.mem m
        BusAlone m (readKeys bank) p t ∧ (k ≠ 0 → t.frame m = s.frame m) ∧ answerOf t m k = BusAns.none
          ∧ ∃ new : Vec, t.mem m = putVec (if be = BitVec.allOnes 16 then c else afterRead c bank vec) bank vec new
            ∧ let o := getVec c bank vec
              let w := lanesOf d
              ∀ i : LaneId, new.get i =
                let en := be.toNat / 16 ^ i.val % 16
                if en = 15 then freshLane bank (w.get i)
                else if o.2 = .uncorrectable then (if bankHasRes bank = true then o.1.get i else ⟨0, 0⟩)
                else if en = 0 then o.1.get i
                else freshLane bank (mergeBytes en (w.get i) (o.1.get i).data)))
    ∧ (∀ (kind : Fin 3) lanes w bank vec, dest 0 true = .mem bank vec → atomicBank bank = true →
      Answers (if kind = 0 then .atomicAdd e k addr lanes w else if kind = 1 then .atomicAddS e k addr lanes w
          else .atomicSwap e k addr lanes w) s (fun t =>
        let p := after bank vec (.atomic kind lanes w)
        let c := p.mem m
        let x := (getVec (afterRead c bank vec) bank vec).1
        BusAlone m (o1A_EGRESS_POISON :: readKeys bank) p t ∧ (k ≠ 0 → t.frame m = s.frame m)
          ∧ Delivered m k (getVec c bank vec) bank p t
          ∧ (lanes = 0 → t.mem m = afterRead c bank vec)
          ∧ (lanes ≠ 0 → ∃ new : Vec, t.mem m = putVec (afterRead c bank vec) bank vec new
              ∧ ∀ i : LaneId, if lanes.getLsbD i.val = true then
                  (if kind = 2 then new.get i = mkLane (w.get i)
                   else LaneIs (laneOk (x.get i)) (sumWord (kind == 1) ((x.get i).data.toInt + (w.get i).toInt)) (new.get i))
                else new.get i = x.get i)))

/-- A register write reaches the register that the map gives it. A Sector that is enabled with a window that breaks R480 stays
disabled and sets SECTOR_ERROR. An access that the map refuses ends with an error, or is held under HANG; one to a bank on its
way to ON waits. A master that is held or in reset issues nothing; a register of the Keeper's firmware stops the block.
Clauses that rest on the model's choices: log entry 30. -/
def Obligations.BusRegistersAndErrors : Prop :=
  ∀ (e : Ev) (k addr : Nat) (s : State),
    let m := e.m
    let s0 := s.at e.t
    let r := s.realm m
    (MasterFree s m k → k ≠ 6 → ∀ (v : BitVec 32) (a : Nat), place r k (addr / 4 * 4) true = .reg a → regListed r.bus a = true →
      exec (.registerWrite e k addr v) s = .next (answer (regWrite s0 m k a v.toNat) m k BusAns.none)
        ∧ let b := ((regWrite s0 m k a v.toNat).realm m).bus
          (a = 0x80001000 → b.pend = r.bus.pend &&& ~~~(v.setWidth 64))
          ∧ (a = 0x80001008 → b.mask = (r.bus.mask &&& 0xFFFFFFFF00000000) ||| v.setWidth 64)
          ∧ (a = 0x80001010 → b.enable = v.getLsbD 0)
          ∧ (a = 0x80001024 → b.alarm = v)
          ∧ (a = 0x80000000 → k = 0 → b.remap = v.getLsbD 0))
    ∧ (portOpen s = true → ∀ v : BitVec 32, Answers (.registerWrite e 6 addr v) s (fun t =>
        let o := addr % 0x1000 / 4 * 4
        RealmsKept s t ∧ t.hub.code = 0 ∧ t.hub.done = 4
          ∧ t.hub.ipend = (if o = 0x080 then s.hub.ipend &&& ~~~v else if o = 0x090 then (hostExit s.hub).ipend else s.hub.ipend)
          ∧ t.hub.imask = (if o = 0x084 then v else s.hub.imask)
          ∧ t.hub.ienable = (if o = 0x088 then v.getLsbD 0 else s.hub.ienable)
          ∧ t.hub.sticky = (if o = 0x014 then s.hub.sticky &&& ~~~v else s.hub.sticky)))
    ∧ (∀ n reg v, n < 8 → reg < 4 → controlPlace r (busMaster k) (0x80002000 + 16 * n + 4 * reg) true ≠ .error →
      Answers (.sectorWrite e k n reg v) s (fun t =>
        let x := sectorSet (r.bus.sector n) reg (v % 4294967296)
        let bad := x.enable && !sectorOk r.bus n x
        t = s0.modBus m (fun b => { b with sectors := (t.realm m).bus.sectors, sectorError := r.bus.sectorError || bad })
          ∧ (t.realm m).bus.sector n = (if bad then { x with enable := false } else x)
          ∧ ∀ j, j ≠ n → (t.realm m).bus.sector j = r.bus.sector j))
    ∧ (∀ op, opBeats op ≤ 16 → MasterFree s m k → privAt s m k addr op = none →
        (places r k addr op).any (placeBad r.bus op) = true →
        let err := answer s0 m k (match op with
          | .read _ => ⟨List.replicate (readCount op) (Quad.all 0), List.replicate (readCount op) 0, true⟩
          | _ => ⟨[], [], true⟩)
        if (k = 3 ∨ k = 4) ∧ s.onat m o2A_DECODE_POLICY = 1 then
          exec (busInstr e k addr op) s = .next (s0.modBus m (fun b =>
            { b with waiting := b.waiting ++ [⟨k, addr, op, s0.now, issuedQos k, true, false⟩] }))
        else if k = 1 ∧ (loadState s m = 1 ∨ loadState s m = 2) then
          Answers (busInstr e k addr op) s (LoadFails m 5 (s.onat m o14_LOAD_BYTES) 5 err)
        else exec (busInstr e k addr op) s = .next (if k = 2 then err.bump m o24_RX_DROPS 1
          else if k = 12 then err.bump m (o24_RX_DROPS + 16) 1 else err))
    ∧ (∀ op, opBeats op ≤ 16 → MasterFree s m k → privAt s m k addr op = none →
        (places r k addr op).any (placeBad r.bus op) = false → (places r k addr op).any placeWaits = true →
        exec (busInstr e k addr op) s = .next (s0.modBus m (fun b =>
          { b with waiting := b.waiting ++ [⟨k, addr, op, s0.now, issuedQos k, false, false⟩] })))
    ∧ (∀ op, opBeats op ≤ 16 → ¬MasterFree s m k → privAt s m k addr op = none → exec (busInstr e k addr op) s = .next s0)
    ∧ (∀ op a, opBeats op ≤ 16 → privAt s m k addr op = some a → exec (busInstr e k addr op) s = .refused (.firmwareRegister a))

/-- The Keeper's interrupt controller: a read of IC_VEC takes the lowest pending source that is not masked into service, a write
of IC_EOI ends it or chains the next, a write of IC_RAISE pends software sources; the host's controller does the same. Waiting
transactions age; one outstanding for 1 ms is reported; a reset that completes lets its master issue again, a bank that has
become ON serves what waits for it, and goes on to RETAIN where that was asked; one that was OFF, or goes OFF, holds zero.
Clauses that rest on the model's choices: log entries 29, 30. -/
def Obligations.InterruptsAndWaits : Prop :=
  ∀ (e : Ev) (s : State),
    let m := e.m
    let s0 := s.at e.t
    let b := (s.realm m).bus
    let take := fun (n : Nat) (c : Bool) (b : BusSt) =>
      { b with pend := b.pend &&& ~~~(BitVec.ofNat 64 (2 ^ n)), inService := BitVec.ofNat 8 n, chained := c }
    (b.enable = true → b.inService = 0xFF → ∀ n, Lowest b.pend b.mask n →
      exec (.icVecRead e) s = .next (answer (s0.modBus m (take n false)) m 0 ⟨[⟨BitVec.ofNat 32 n, 0, 0, 0⟩], [0], false⟩))
    ∧ (b.enable = false ∨ b.inService ≠ 0xFF ∨ b.pend &&& ~~~b.mask = 0 →
      exec (.icVecRead e) s = .next (answer s0 m 0 ⟨[⟨0xFF, 0, 0, 0⟩], [0], false⟩))
    ∧ (∀ v, b.inService ≠ 0xFF → b.enable = true → ∀ n, Lowest b.pend b.mask n →
      exec (.icEoiWrite e v) s = .next (s0.modBus m (take n true)))
    ∧ (∀ v, b.inService ≠ 0xFF → b.enable = false ∨ b.pend &&& ~~~b.mask = 0 →
      exec (.icEoiWrite e v) s = .next (s0.modBus m (fun b => { b with inService := 0xFF, chained := false })))
    ∧ (∀ v, b.inService = 0xFF → exec (.icEoiWrite e v) s = .next s0)
    ∧ (∀ v : BitVec 32, exec (.icRaiseWrite e v) s = .next (s0.modBus m (fun b =>
        { b with pend := b.pend ||| ((v &&& 0xFFFF).setWidth 64 <<< 48) })))
    ∧ (let h := s.hub
       portOpen s = true →
        (h.ienable = true → h.inService = 0xFF → ∀ n, Lowest h.ipend h.imask n →
          Answers (.hhIvecRead e.t) s (fun t => RealmsKept s t ∧ t.hub.out = toLe 4 n ∧ t.hub.code = 0
            ∧ t.hub.ipend = h.ipend &&& ~~~(BitVec.ofNat 32 (2 ^ n)) ∧ t.hub.inService = BitVec.ofNat 8 n ∧ t.hub.chained = false))
        ∧ (h.inService ≠ 0xFF → Answers (.hhIvecRead e.t) s (fun t => RealmsKept s t
            ∧ t.hub.out = toLe 4 ((if h.chained then 256 else 0) + h.inService.toNat) ∧ t.hub.ipend = h.ipend
            ∧ t.hub.inService = h.inService))
        ∧ (h.inService = 0xFF → h.ienable = false ∨ h.ipend &&& ~~~h.imask = 0 →
          Answers (.hhIvecRead e.t) s (fun t => RealmsKept s t ∧ t.hub.out = toLe 4 0xFF ∧ t.hub.ipend = h.ipend
            ∧ t.hub.inService = 0xFF))
        ∧ (∀ v, Answers (.hhEoiWrite e.t v) s (fun t => RealmsKept s t ∧ t.hub.imask = h.imask ∧ t.hub.ienable = h.ienable
            ∧ (h.inService = 0xFF → t.hub.inService = 0xFF ∧ t.hub.ipend = h.ipend)
            ∧ (h.inService ≠ 0xFF → h.ienable = false ∨ h.ipend &&& ~~~h.imask = 0 →
                t.hub.inService = 0xFF ∧ t.hub.chained = false ∧ t.hub.ipend = h.ipend)
            ∧ (h.inService ≠ 0xFF → h.ienable = true → ∀ n, Lowest h.ipend h.imask n →
                t.hub.inService = BitVec.ofNat 8 n ∧ t.hub.chained = true ∧ t.hub.ipend = h.ipend &&& ~~~(BitVec.ofNat 32 (2 ^ n))))))
    ∧ exec (.busQosAgeing e) s = .next (s0.modBus m (fun b => { b with waiting := b.waiting.map (fun w =>
        if w.held then w
        else { w with qos := Nat.max w.qos (Nat.min 6 (issuedQos w.master + (s0.now - w.since) / us 4)) }) }))
    ∧ (let due := b.waiting.filter (watchDue s0.now)
       Answers (.busWatch e) s (fun t =>
        Becomes m (o2A_BUS_WATCH_COUNT :: eventKeys) { s.realm m with bus := { b with
            watch := b.watch || !due.isEmpty, watchMaster := (t.realm m).bus.watchMaster, watchAddr := (t.realm m).bus.watchAddr,
            waiting := b.waiting.map (fun w => if watchDue s0.now w = true then { w with watched := true } else w) } } s t
          ∧ Counted m o2A_BUS_WATCH_COUNT due.length s t
          ∧ ∀ w, due.getLast? = some w → (t.realm m).bus.watchMaster = busMaster w.master ∧ (t.realm m).bus.watchAddr = w.addr))
    ∧ (∀ k, let x := s0.modBus m (fun b => { b with resetting := tput 0 b.resetting k 0 })
        exec (.masterResetComplete e k) s = .next (pump false x) ∧ (HubQuiet s → pump false x = x))
    ∧ (∀ (d : Fin 64) v t1, ((s.realm m).deepPow d.val).target = some (v, t1) →
        let was := (s.realm m).deepPow d.val
        let put := fun (s : State) y => s.modMemory m (fun x => { x with deep := tput DeepPow.reset x.deep d.val y })
        let y := if v = 2 ∨ was.st = 2 then s0.setMem m (zeroVecs (s.mem m) (0x40 + d.val) 0 16384) else s0
        let x := (put y ⟨v, none, false⟩).oput m (o18_POWER_STATE + 16 * (0x40 + d.val)) v
        let z := serveWaits b.waiting.length x m (0x40 + d.val)
        exec (.deepBankTransition e d) s = .next (pump false (if was.retain then powerStateDo z m d.val 1 else z))
          ∧ (HubQuiet s → b.waiting = [] → (was.retain = false → exec (.deepBankTransition e d) s = .next x)
              ∧ (was.retain = true → v = 0 → exec (.deepBankTransition e d) s = .next (put x ⟨1, some (1, s0.now + us 2), false⟩))))

/-- The Keeper: KC_PATCH.APPLY starts the check in BRING-UP and MAINTENANCE; a patch that verifies publishes its number, any other
leaves REJECTED. The Keeper comes up with REMAP at 1. The watchdog, unrefreshed for 1 s, restarts the Keeper: what Keeper RAM
held is lost and the realm's mailboxes become EMPTY, while tiles and frames go on.
Clauses that rest on the model's choices: log entries 9, 31, 32. -/
def Obligations.KeeperStartsAndPatches : Prop :=
  ∀ (e : Ev) (s : State),
    let m := e.m
    let s0 := s.at e.t
    let r := s.realm m
    (∀ k v, controlPlace r (busMaster k) 0x80000004 true ≠ .error →
      exec (.kcPatchApply e k v) s = .next (if v % 2 = 1 ∧ (r.mode = .bringUp ∨ r.mode = .maintenance) ∧ r.bus.patch = 0 then
          s0.modBus m (fun b => { b with patch := 3, patchAt := s0.now }) else s0))
    ∧ (let p := (patchCheck s0 m).2
       let ok := (patchCheck s0 m).1
       let bytes := fun n => (List.range n).flatMap (fun j => lanesBytes ((getVec (s.mem m) 0x81 (0x4000 + j)).1.map (·.data)))
       ((∀ v, 0x4000 ≤ v → v < 0x8000 → CleanVec (s.mem m) 0x81 v) →
          p = s0 ∧ ok = (match patchLen (bytes 2) with | some n => patchSigned (bytes (n / 16)) n | none => false))
        ∧ (r.bus.patch = 3 → Answers (.patchCheckDone e) s (fun t =>
            if ok = true then
              Becomes m ([o2A_PATCH_ID, o2A_PATCH_STATE] ++ eventKeys) { p.realm m with bus := { (p.realm m).bus with patch := 1 } } p t
                ∧ t.onat m o2A_PATCH_ID = le (bytes 1) 12 4 ∧ t.onat m o2A_PATCH_STATE = 1 ∧ Raised m 0x2A01 o2A_PATCH_ID p t
            else
              Becomes m (o2A_PATCH_STATE :: eventKeys) { p.realm m with bus := { (p.realm m).bus with patch := 2 } } p t
                ∧ t.onat m o2A_PATCH_STATE = 2 ∧ Raised m 0x2A02 o2A_PATCH_STATE p t)))
    ∧ (r.bus.keeperStart.isSome = true → r.bus.keeper = false → Answers (.keeperReady e) s (fun t =>
        Becomes m readyKeys { r with bus := { r.bus with keeper := true, remap := true, refreshed := s0.now } } s t))
    ∧ (r.bus.keeper = true → r.bus.refreshed + sec 1 ≤ s0.now → Answers (.watchdogExpiry e) s (fun t =>
        let b := (t.realm m).bus
        let l := (t.realm m).bil
        b.keeper = false ∧ b.keeperStart = some s0.now ∧ b.remap = false ∧ b.patch = 0 ∧ b.pend = 0 ∧ b.mask = BitVec.allOnes 64
          ∧ b.enable = false ∧ b.inService = 0xFF ∧ b.alarm = 0 ∧ tget 0 b.resetting 0 = s0.now + 1
          ∧ l.sessions = [] ∧ l.subs = [] ∧ l.hostQ = [] ∧ l.fwds = [] ∧ l.log = r.bil.log
          ∧ ObjsBut m [o2A_PATCH_STATE, o2A_PATCH_ID] s t ∧ t.onat m o2A_PATCH_STATE = 0 ∧ t.onat m o2A_PATCH_ID = 0
          ∧ (t.realm m).ready = 0 ∧ t.realm m = { r with objs := (t.realm m).objs, bus := b, bil := l, ready := 0 }
          ∧ t.mem m = zeroVecs (s.mem m) 0x81 0 32768 ∧ (∀ j, j ≠ m → t.realm j = s.realm j ∧ t.mem j = s.mem j)
          ∧ t.hub = { s.hub with boxes := t.hub.boxes, ipend := t.hub.ipend,
                                 mirror := if s.hub.ready then s.hub.mirror.set m 0 else s.hub.mirror }
          ∧ (∀ n, n / 4 = m.val → boxOf t.hub n = { Mailbox.empty with abandoned := (boxOf s.hub n).state == 1 })
          ∧ (∀ n, n / 4 ≠ m.val → boxOf t.hub n = boxOf s.hub n)))

/-! ## Memory control and outputs (07, 08, 09) -/

/-- A scrub read reads one vector and writes back one that it corrects; the last range ends a pass. The self-test ends with its
banks zero, its results published and the deep banks as before. The clearing pass reports its lanes. Initialisation that is done
lets a start that waited take effect while the device is in HUB. Fades that have reached their last sample end, and a transition with its fade.
Clauses that rest on the model's choices: log entries 2, 8, 27, 74. -/
def Obligations.MemoryPassesAndFades : Prop :=
  ∀ (e : Ev) (s : State),
    let m := e.m
    let s0 := s.at e.t
    let r := s.realm m
    let c := s.mem m
    (let b := (scrubPlace r).1.1
     let v := (scrubPlace r).1.2
     let p := portAccess s0 m b v .read
     let c := p.mem m
     let o := getVec c b v
     Answers (.scrubRead e) s (fun t =>
      let x := (t.realm m).memory
      BusAlone m (o18_SCRUB_PASSES :: readKeys b) p
          (t.modMemory m (fun y =>
            { y with scrubBank := r.memory.scrubBank, scrubVec := r.memory.scrubVec, scrubKept := r.memory.scrubKept }))
        ∧ (t.mem m = match o.2 with
            | .clean => c
            | .corrected _ _ => if b = 0x82 then c else putVec c b v o.1
            | .uncorrectable => afterRead c b v)
        ∧ (match nextScrub r v (scrubPlace r).2 with
          | some n => x.scrubBank = n.1 ∧ x.scrubVec = n.2 ∧ x.scrubKept = r.memory.scrubKept ∧ Counted m o18_SCRUB_PASSES 0 s t
          | none => x.scrubBank = 0 ∧ x.scrubVec = 0 ∧ x.scrubKept = false ∧ Counted m o18_SCRUB_PASSES 1 s t
            ∧ (t.realm m).bus.pend.getLsbD 22 = true)))
    ∧ (∀ fails, s.onat m o18_MBIST_STATE = 1 → Answers (.mbistDone e fails) s (fun t =>
        let banks := mbistBanks r.memory.mbistMask
        let deep : Prop := r.memory.mbistMask / 16 % 2 = 1
        let bad := fun b : Nat => ((fails.filter (fun f => f.1 == b)).foldl (fun a f => a + f.2) 0 : Nat)
        OnlyRealm m s t ∧ t.mem m = banks.foldl (fun c b => zeroVecs c b 0 (bankVectors b)) c
          ∧ (∀ k, k ≠ o18_MBIST_STATE → (∀ b ∈ banks, k ≠ o18_MBIST_RESULT + 16 * b ∧ k ≠ o18_MBIST_FAILS + 16 * b)
              → (∀ b, b < 64 → k ≠ o18_POWER_STATE + 16 * (0x40 + b)) → t.oget m k = s.oget m k)
          ∧ t.onat m o18_MBIST_STATE = 2
          ∧ (∀ b ∈ banks, t.onat m (o18_MBIST_RESULT + 16 * b) = (if bad b = 0 then 1 else 2)
              ∧ t.onat m (o18_MBIST_FAILS + 16 * b) = Nat.min (bad b) 0xFFFFFFFF)
          ∧ (∀ b, b < 64 → deep → (t.realm m).deepPow b = tget DeepPow.reset r.memory.before b
              ∧ t.onat m (o18_POWER_STATE + 16 * (0x40 + b)) = (tget DeepPow.reset r.memory.before b).st)
          ∧ (¬deep → (t.realm m).memory.deep = r.memory.deep
              ∧ ∀ b, b < 64 → t.oget m (o18_POWER_STATE + 16 * (0x40 + b)) = s.oget m (o18_POWER_STATE + 16 * (0x40 + b)))
          ∧ t.realm m = { r with objs := (t.realm m).objs, memory := { r.memory with deep := (t.realm m).memory.deep },
                                 bus := { r.bus with pend := r.bus.pend ||| BitVec.ofNat 64 (2 ^ 24) } }))
    ∧ (let rs := footRanges (runImg (s.frame m))
       r.memory.clearing.isSome = true →
        (∀ x ∈ rs, 0x40 ≤ x.bank → x.bank < 0x80 → r.deepComing (x.bank - 0x40) = false) →
        let y := rs.foldl (clearRange m) (s0, 0)
        exec (.poisonClearDone e) s = .next ((((y.1.modMemory m (fun x => { x with clearing := none })).oput m
            o1A_POISON_CLEAR_STATE 2).oput m o1A_POISON_CLEARED (y.2 : Int)).raise m 0x1A04 o1A_POISON_CLEARED)
          ∧ ((∀ x ∈ rs, ∀ v, x.lo ≤ v → v < x.hi → CleanVec c x.bank v) → y = (s0, 0)))
    ∧ (r.memory.initSince.isSome = true →
        let x := s0.modMemory m (fun x => { x with initSince := none, startWaits := false })
        exec (.resetInitialisationDone e) s = .next (if r.memory.startWaits = true ∧ hubUp s = true then bringUp x m else x)
          ∧ (r.memory.startWaits = true → hubUp s = true → ((bringUp x m).realm m).mode = .bringUp ∧ ((bringUp x m).realm m).bringUpAt = s0.now
              ∧ pllState (bringUp x m) m = 1 ∧ ((bringUp x m).realm m).bus.keeperStart = some s0.now))
    ∧ (r.trans.all (fun t => !t.begun || decide (s0.now < t.since + fadePs)) = true → Answers (.fadeEnd e) s (fun t =>
        OnlyRealm m s t ∧ t.mems = s.mems ∧ (∀ p, p < 16 → t.port m p = settlePort (s.port m p))
          ∧ t.realm m = { r with out := settleOut r.out s0.now, ports := (t.realm m).ports }))
    ∧ (∀ x, r.trans = some x → x.begun = true → x.since + fadePs ≤ s0.now → x.stop = false →
        Answers (.fadeEnd e) s (fun t =>
          let o := settleOut r.out s0.now
          OnlyRealm m s t ∧ t.mems = s.mems ∧ (∀ p, p < 16 → t.port m p = settlePort (s.port m p))
            ∧ t.realm m = { r with trans := (t.realm m).trans, safeDue := (t.realm m).safeDue, ports := (t.realm m).ports,
                                   out := if x.target = .standby ∧ r.mode = .standby then { o with mode := Gate.open } else o }
            ∧ (r.safeDue = none → (t.realm m).trans = none ∧ (t.realm m).safeDue = none)
            ∧ (∀ c, r.safeDue = some c → safeMode r.mode = true →
                (t.realm m).trans = some ⟨.safe, false, false, s0.now⟩ ∧ (t.realm m).safeDue = some c)))
    ∧ (∀ x, r.trans = some x → x.begun = true → x.since + fadePs ≤ s0.now → x.stop = true → Answers (.fadeEnd e) s (fun t =>
        RealmAlone m s t ∧ t.mems = s.mems ∧ (t.realm m).trans = r.trans ∧ (t.realm m).out = settleOut r.out s0.now
          ∧ (∀ p, p < 16 → s.onat m (o20_ENABLE + 16 * p) = 1 → t.onat m (o20_ENABLE + 16 * p) = 0)
          ∧ (∀ k, k < 64 → (s.onat m (o26_ENABLE + 16 * k) = 1 → t.onat m (o26_ENABLE + 16 * k) = 0)
              ∧ (s.onat m (o26_300_ENABLE + 16 * k) = 1 → t.onat m (o26_300_ENABLE + 16 * k) = 0))))
    ∧ (∀ low, let act := fun (s1 t : State) =>
          let x := s1.modOut m (fun o => { o with pinLow := true, pinRose := s0.now + low })
          if s.onat m o20_MUTE_PIN_ENABLE = 1 then PinMuted m x t else t = x
        (ns 50 ≤ low → Answers (.mutePin e low) s (act s0))
        ∧ (low < ns 20 → exec (.mutePin e low) s = .next s0)
        ∧ (ns 20 ≤ low → low < ns 50 → Answers (.mutePin e low) s (fun t =>
            t = { s0 with free := t.free } ∨ act { s0 with free := t.free } t)))
    ∧ (s.onat m o20_MUTE_PIN_STATE = 1 → r.out.pinRose + ns (s.onat m o20_MUTE_RELEASE) ≤ s0.now →
        exec (.muteRelease e) s = .next (((s0.modOut m (fun o =>
          { o with pinLow := false, pin := Gate.fading false (nextTick s0 m) })).oput m o20_MUTE_PIN_STATE 0).irq m 0))

/-- A complete input frame is buffered with its words, an invalid one is concealed and counted, and of a follower it is its LEAD
candidate's signal or a glitch; a change of FSYNC to its inactive level closes no frame. Output words leave in their slots, OFFSET
periods late, a word that fails its check as zero and counted. A port changes its state at the counts of frames, edges and timeouts
of the state table.
Clauses that rest on the model's choices: log entries 34, 35, 36. -/
def Obligations.PortEvents : Prop :=
  ∀ (e : PEv) (s : State), e.p < 16 →
    let m := e.m
    let p := e.p
    let s0 := s.at e.t
    let st := portState s m p
    let x := s.port m p
    let r := s.realm m
    let only := fun (ks : List Nat) (t : State) =>
      Becomes m (ks.map (· + 16 * p)) { r with ports := (t.realm m).ports, clock := { r.clock with cands := (t.realm m).clock.cands } } s t
        ∧ ∀ j, j ≠ p → t.port m j = s.port m j
    (∀ f : TdmIn, st = 0 ∨ st = 5 ∨ (f.closed = true ∧ f.level ≠ fsyncActive s m p) → exec (.tdmInputFrame e f) s = .next s0)
    ∧ (∀ f : TdmIn, st ≠ 0 → st ≠ 5 → (f.closed = true → f.level = fsyncActive s m p) →
      let shape := f.closed && f.periods == frameBits s m p
      let ok := shape && inTol s m p f.xo && r.xo
      let words := if ok then deserialise s m p f.din else x.last
      let z : Port := { x with
        last := words, frames := (x.frames ++ [(⟨f.edge, s0.now, words⟩ : InFrame)]).drop (x.frames.length - 2),
        valid := if ok then x.valid + 1 else 0, off := if shape && !ok then x.off + 1 else 0,
        invalid := if ok then 0 else x.invalid + 1, rateFrames := x.rateFrames + 1,
        zeroEdge := if !ok && f.closed then some f.edge else x.zeroEdge }
      let y := if ok = false ∧ (x.outEdge = some f.edge ∨ f.closed = false) then quietPort z else z
      let lead : Prop := p < 2 ∧ s.onat m (o20_ROLE + 16 * p) = 2
      Answers (.tdmInputFrame e f) s (fun t =>
        Counted m (o20_INVALID_FRAMES + 16 * p) (if ok then 0 else 1) s t
          ∧ Counted m (o20_CONCEALED_FRAMES + 16 * p) (if ok then 0 else 1) s t
          ∧ (masterLate s m p = false →
              only ([o20_INVALID_FRAMES, o20_CONCEALED_FRAMES, o20_STATE]
                  ++ [o22_GLITCHES + 48, o22_CAND_STATE + 48, o22_CAND_LOSSES + 48]) t
                ∧ (if st = 6 ∧ ok = true then portState t m p = 2 ∧ (t.port m p).valid = 1 ∧ (t.port m p).last = words
                   else portState t m p = st ∧ t.port m p = y))
          ∧ (¬lead → (t.realm m).clock = r.clock)
          ∧ (lead → (if ok = true then (t.cand m (3 + p)).signal = true ∧ (t.cand m (3 + p)).glitch = 0
              else Counted m (o22_GLITCHES + 16 * (3 + p)) (if st = 3 then 1 else 0) s t
                ∧ (st = 3 → 3 ≤ (s.cand m (3 + p)).glitch → (t.cand m (3 + p)).signal = false ∧ candState t m (3 + p) ≠ 2
                    ∧ candState t m (3 + p) ≠ 3)))
          ∧ (masterLate s m p = true → OnlyRealm m s t ∧ MemBut m (symAddr 0x80 0 0) (symAddr 0x81 0 0) s t
              ∧ portState t m p = st ∧ (t.port m p).taken = some f.edge ∧ (t.port m p).held = words
              ∧ (t.port m p).shown = fadeWords x.inFade words)))
    ∧ (∀ edge, st ≠ 0 →
      let words := match x.outs.find? (fun o => o.1 == edge || o.1 == 0) with
        | some o => o.2
        | none => x.sent
      let cut := fun (g : Gate) => g.closed && g.fade.isNone
      let live := (st == 3 || st == 4) && !(r.out.cut || cut r.out.pin || cut r.out.pll) && x.zeroEdge != some edge
      let bits := shiftOut s m p (words.map (fun l => if live && laneOk l then l else zeroLane))
      let off := s.onat m (o20_OFFSET + 16 * p) % frameBits s m p
      let head := if x.tail = [] then List.replicate off (some false) else x.tail
      Answers (.tdmOutputFrame e edge) s (fun t =>
        only [o1A_SERIALISER_ZERO] t
          ∧ Counted m (o1A_SERIALISER_ZERO + 16 * p) (words.filter (fun l => !laneOk l)).length s t
          ∧ t.port m p = { x with
              sent := words, outs := x.outs.filter (fun o => decide (edge < o.1)), outEdge := some edge,
              dout := if st = 5 then [] else head ++ bits.take (bits.length - off), tail := bits.drop (bits.length - off),
              fsync := if isMaster s m p = true then fsyncOut s m p else [], rise := s.onat m (o20_BCLK_EDGE + 16 * p) == 1,
              zeroEdge := if x.zeroEdge = some edge then none else x.zeroEdge }))
    ∧ (st = 1 → x.stop = false → s.onat m (o20_START_FRAMES + 16 * p) ≤ x.count →
        Answers (.startFramesDone e) s (PortTo m p 3 s))
    ∧ (st = 2 → s.onat m (o20_REQUAL_FRAMES + 16 * p) ≤ x.valid → Answers (.requalified e) s (PortTo m p 3 s))
    ∧ (st = 2 → x.valid < s.onat m (o20_REQUAL_FRAMES + 16 * p) → s.onat m (o20_REQUAL_FRAMES + 16 * p) ≤ x.off →
        Answers (.requalified e) s (fun t => PortTo m p 6 s t ∧ Raised m 0x2003 (o20_RATE_MEASURED + 16 * p) s t))
    ∧ (st = 4 → 32 + s.onat m (o20_STOP_FRAMES + 16 * p) ≤ x.count → Answers (.stopFramesDone e) s (PortTo m p 0 s))
    ∧ (st = 3 → s.onat m (o20_INVALID_LIMIT + 16 * p) ≤ x.invalid → Answers (.invalidLimitReached e) s (PortLost m p s))
    ∧ (∀ last, edgeMissing s0 m p last = false → exec (.missingEdgeTimeout ⟨e, last⟩) s = .next s0)
    ∧ (∀ last, edgeMissing s0 m p last = true →
        (st = 4 ∨ (st = 1 ∧ x.stop = true) → Answers (.missingEdgeTimeout ⟨e, last⟩) s (PortTo m p 0 s))
        ∧ (st ≠ 0 → st ≠ 4 → st ≠ 5 → ¬(st = 1 ∧ x.stop = true) → Answers (.missingEdgeTimeout ⟨e, last⟩) s (fun t =>
            PortLost m p s t ∧ (isMaster s m p = true → t.onat m (o20_PIN_FAULT + 16 * p) = 1)
              ∧ (isMaster s m p = false → t.oget m (o20_PIN_FAULT + 16 * p) = s.oget m (o20_PIN_FAULT + 16 * p)))))
    ∧ (st = 5 → Answers (.bclkReturn e) s (PortTo m p 2 s))
    ∧ (∀ rate, st = 6 → 256 ≤ x.rateFrames → telemetry s m = true → rate < 2 ^ 32 → exec (.rateMeasuredUpdate e rate) s =
        .next ((s0.oput m (o20_RATE_MEASURED + 16 * p) (rate : Int)).modPort m p (fun x => { x with rateFrames := 0 })))
    ∧ (let g := s.onat m (o20_GROUP + 16 * p)
       g ≠ 0 → s.onat m (o20_ALIGN_OUT + 16 * p) = 1 → s.onat m (o20_REJOIN_FRAMES + 16 * (g - 1)) ≤ x.aligned →
        exec (.rejoin e) s = .next (s0.modPort m p (fun x => { x with rejoin := true })))

/-! ## Clocks (10) -/

/-- LOCK_WINDOWS windows within LOCK_TOL lock the synthesiser, one beyond UNLOCK_TOL or a cycle slip loses lock; the eighth step
of the glide gives the tick back, RELOCK_SETTLE later the outputs return; eight failed acquisitions give FAILED. Without the crystal no window ends. The pulse output
rises at a whole second of the timebase plus PPS_OFFSET where its mode lets it.
Clauses that rest on the model's choices: log entry 42. -/
def Obligations.LockAndRelock : Prop :=
  ∀ (e : Ev) (s : State),
    let m := e.m
    let s0 := s.at e.t
    let st := pllState s m
    let r := s.realm m
    let c := r.clock
    let keys := o22_PLL_STATE :: readyKeys
    (∀ n : Nat, let d := ((n : Int) - (20 * s.onat m o22_LOCK_WINDOW : Nat)).natAbs
        let good := if d ≤ s.onat m o22_LOCK_TOL then c.good + 1 else 0
        (r.xo = false → exec (.lockWindowEnd e n) s = .next s0)
        ∧ (r.xo = true → st = 1 ∨ st = 5 → s.onat m o22_LOCK_WINDOWS ≤ good → Answers (.lockWindowEnd e n) s (fun t =>
          let y : ClockSt := { c with
            good := 0, fails := 0, glide := 0, glideAt := s0.now, source := if c.first then 0 else 2 }
          Becomes m keys { r with clock := y } s t
            ∧ pllState t m = 2 ∧ (t.realm m).bus.pend.getLsbD 1 = true))
        ∧ (r.xo = true → st = 1 ∨ st = 5 → good < s.onat m o22_LOCK_WINDOWS → exec (.lockWindowEnd e n) s =
            .next (s0.modClock m (fun c => { c with good := good })))
        ∧ (r.xo = true → 2 ≤ st → st ≤ 4 → s.onat m o22_UNLOCK_TOL < d → Answers (.lockWindowEnd e n) s (LockLost m s0))
        ∧ (r.xo = true → 2 ≤ st → st ≤ 4 → d ≤ s.onat m o22_UNLOCK_TOL → exec (.lockWindowEnd e n) s = .next s0))
    ∧ (2 ≤ st → st ≤ 4 → Answers (.cycleSlip e) s (LockLost m s0))
    ∧ (st = 2 → c.glideAt + ns (s.onat m o22_GLIDE_INTERVAL) ≤ s0.now →
        (c.glide < 7 → exec (.glideStep e) s = .next (s0.modClock m (fun c => { c with glide := c.glide + 1, glideAt := s0.now })))
        ∧ (7 ≤ c.glide → Answers (.glideStep e) s (fun t =>
            let y : ClockSt := { c with
              glide := 8, glideAt := s0.now, settleAt := s0.now, first := false, tickXo := false, source := 2, auxLow := false }
            Becomes m keys { r with clock := y } s t ∧ pllState t m = 3)))
    ∧ (st = 3 → c.settleAt + ns (s.onat m o22_RELOCK_SETTLE) ≤ s0.now → Answers (.relockSettleDone e) s (fun t =>
        let o : OutSt := { r.out with pll := if r.out.pll.closed then Gate.fading false (nextTick s0 m) else r.out.pll }
        Becomes m keys { r with clock := { c with masterZero := false }, ports := (t.realm m).ports, out := o } s t
          ∧ pllState t m = 4
          ∧ ∀ p, p < 16 → t.port m p = if c.masterZero ∧ isMaster s m p = true ∧ portState s m p = 3 then
              { s.port m p with inFade := some (true, 0) } else s.port m p))
    ∧ (let x := (s0.bump m o22_RELOCK_FAILS 1).modClock m (fun c =>
          { c with fails := c.fails + 1, good := 0, acqStart := s0.now })
       (st = 1 → c.acqStart + ms 10 ≤ s0.now → c.fails + 1 < 8 → exec (.acquisitionTimeout e) s = .next x)
        ∧ (st = 5 → c.acqStart + ms 100 ≤ s0.now → exec (.acquisitionTimeout e) s = .next x)
        ∧ (st = 1 → c.acqStart + ms 10 ≤ s0.now → 8 ≤ c.fails + 1 → ∃ y,
            exec (.acquisitionTimeout e) s = .next (y.raise m 0x2203 o22_PLL_STATE)
              ∧ Becomes m keys (x.realm m) x y ∧ pllState y m = 5))
    ∧ (let v := s.onat m o22_PPS_OUT_MODE
       let on : Prop := v = 1 ∨ (v = 2 ∧ candSignal s m 0 = true)
       let x : Int := s0.tbNs m - s.oget m o22_PPS_OFFSET
       let due : Prop := ∃ k : Int, -2 ≤ x - k * 10 ^ 9 ∧ x - k * 10 ^ 9 ≤ 2
       (on → due → exec (.ppsOutPulse e) s =
          .next (s0.modClock m (fun c => { c with ppsHigh := some (s0.now + ns (s.onat m o22_PPS_WIDTH)) })))
        ∧ (¬on ∨ ¬due → exec (.ppsOutPulse e) s = .next s0))

/-- A pulse that lies 1% off its period is a glitch, four in a row make the candidate ABSENT; a good pulse of the selected
candidate gives the phase error, of a LEAD port its λ less T, and steers within PULL_RANGE: by a pull at PULL_RATE beyond 50 ns until
the error is one fine step, else by the loop. A candidate qualifies after QUAL_TIME within PULL_RANGE, and is
lost with its signal or outside it; the reference is LOCKED after 1 s within 50 ns.
Clauses that rest on the model's choices: log entries 6, 42, 43. -/
def Obligations.ReferenceCandidates : Prop :=
  ∀ (e : Ev) (s : State),
    let m := e.m
    let s0 := s.at e.t
    let r := s.realm m
    let clock := fun (t : State) => { r with clock := (t.realm m).clock }
    let lost := fun (c : Nat) (t : State) =>
      if candState s m c = 2 ∨ candState s m c = 3 then candState t m c = 1 ∧ Counted m (o22_CAND_LOSSES + 16 * c) 1 s t
      else candState t m c = candState s m c
    (∀ (c : Fin 5) (iv : Nat) err, r.mode ≠ .dormant →
      let p := pulsePs s m c.val
      let off := ((iv : Int) - p).natAbs
      let glitch : Prop := (c.val = 1 ∨ c.val = 2) ∧ p < 100 * off
      let lam := (s.port m (c.val - 3)).lam
      let e1 : Option Int := if 3 ≤ c.val then
          (if (s.cand m c.val).glitch = 0 then lam.map (fun l => (l : Int) - periodPs (s.rate m)) else none)
        else some (wrapPhase p (err - s.oget m o22_TICK_OFFSET * 1000))
      let used : Prop := selected s m = c.val ∧ candState s m c.val = 3 ∧ (pllState s m = 3 ∨ pllState s m = 4)
      (glitch → Answers (.candidatePulse e c iv err) s (fun t =>
        Becomes m [o22_GLITCHES + 16 * c.val, o22_CAND_STATE + 16 * c.val, o22_CAND_LOSSES + 16 * c.val] (clock t) s t
          ∧ Counted m (o22_GLITCHES + 16 * c.val) 1 s t
          ∧ ((s.cand m c.val).glitch < 3 → candState t m c.val = candState s m c.val
              ∧ (t.cand m c.val).glitch = (s.cand m c.val).glitch + 1)
          ∧ (3 ≤ (s.cand m c.val).glitch → lost c.val t ∧ (t.cand m c.val).signal = false)))
      ∧ (¬glitch → ¬used → Answers (.candidatePulse e c iv err) s (fun t =>
          Becomes m [o22_CAND_STATE + 16 * c.val] (clock t) s t
            ∧ (c.val = 1 ∨ c.val = 2 → (t.cand m c.val).signal = true ∧ (t.cand m c.val).glitch = 0
                ∧ (t.cand m c.val).last = some s0.now
                ∧ (candState s m c.val = 1 → (candOff s m c.val).natAbs ≤ s.onat m o22_PULL_RANGE →
                    candState t m c.val = 2 ∧ (t.cand m c.val).since = s0.now))))
      ∧ (used → e1 = none → exec (.candidatePulse e c iv err) s = .next s0)
      ∧ (∀ e1', ¬glitch → used → e1 = some e1' → Answers (.candidatePulse e c iv err) s (fun t =>
          let e1 := e1'
          let lim : Int := s.onat m o22_PULL_RANGE
          let pulls : Prop := 50000 < e1.natAbs ∨ (r.clock.pulling = true ∧ 1000000 < e1.natAbs * 98304)
          let y := Config.loopSteering r.clock.steer e1 (s.onat m o22_LOOP_BW)
          let near := fun v : Int => if lim < v then lim else if v < -lim then -lim else v
          Becomes m [o22_PHASE_ERROR, o22_STEERING, o22_REF_STATE] (clock t) s t
            ∧ t.oget m o22_PHASE_ERROR = limit31 e1
            ∧ ((t.realm m).clock.pulling = true ↔ pulls)
            ∧ (pulls → t.oget m o22_STEERING = near (r.clock.steer + e1.sign * (s.onat m o22_PULL_RATE : Int)))
            ∧ (¬pulls → r.clock.adjust = none → t.oget m o22_STEERING = near y)
            ∧ (t.realm m).clock.div = divOf r.clock.rate (t.oget m o22_STEERING)
            ∧ (e1.natAbs ≤ 50000 → (t.realm m).clock.lockSince = some (r.clock.lockSince.getD s0.now)
                ∧ t.oget m o22_REF_STATE = s.oget m o22_REF_STATE)
            ∧ (50000 < e1.natAbs → (t.realm m).clock.lockSince = none ∧ t.onat m o22_REF_STATE = 1))))
    ∧ (∀ c : Fin 5, (if c.val = 1 ∨ c.val = 2 then edgesStopped s0 m c.val = false else candSignal s m c.val = true) →
        exec (.candidateLoss e c) s = .next s0)
    ∧ (∀ c : Fin 5, (if c.val = 1 ∨ c.val = 2 then edgesStopped s0 m c.val = true else candSignal s m c.val = false) → Answers (.candidateLoss e c) s (fun t =>
        Becomes m [o22_CAND_STATE + 16 * c.val, o22_CAND_LOSSES + 16 * c.val] (clock t) s t ∧ lost c.val t
          ∧ (t.cand m c.val).signal = false))
    ∧ (∀ c : Fin 5, candState s m c.val = 2 → candSignal s m c.val = true →
        (s.cand m c.val).since + ms (s.onat m o22_QUAL_TIME) ≤ s0.now → (candOff s m c.val).natAbs ≤ s.onat m o22_PULL_RANGE →
        Answers (.candidateQualified e c) s (fun t =>
          Becomes m [o22_CAND_STATE + 16 * c.val] (clock t) s t ∧ candState t m c.val = 3
            ∧ t.cand m c.val = { s.cand m c.val with qualAt := s0.now }))
    ∧ (∀ l, Answers (.candOffsetUpdate e l) s (fun t =>
        Becomes m (candNums.flatMap (fun c => [o22_CAND_OFFSET + 16 * c, o22_CAND_STATE + 16 * c, o22_CAND_LOSSES + 16 * c])
            ++ o22_DISAGREE_COUNT :: eventKeys) (clock t) s t
          ∧ ∀ c v, c < 5 → l[c]? = some v → candSignal s m c = true →
            candOff t m c = limit31 v
              ∧ (telemetry s m = true → t.oget m (o22_CAND_OFFSET + 16 * c) = limit31 v)
              ∧ (s.onat m o22_PULL_RANGE < (limit31 v).natAbs → lost c t)
              ∧ ((limit31 v).natAbs ≤ s.onat m o22_PULL_RANGE → candState s m c = 1 → candState t m c = 2)))
    ∧ (∀ t0, selected s m ≠ 0xFF → s.onat m o22_REF_STATE = 1 → r.clock.lockSince = some t0 → t0 + sec 1 ≤ s0.now →
        Answers (.refLocked e) s (fun t =>
          Becomes m (o22_REF_STATE :: readyKeys) r s t ∧ t.onat m o22_REF_STATE = 2 ∧ (t.realm m).bus.pend.getLsbD 17 = true))

/-! ## Network ports and streams (11) -/

/-- Links follow their modules, which the switch selects. A frame with a bad FCS, or one that the port does not accept, is counted
and dropped; ARP, ICMP, IGMP, PTP and Biluno frames go to the Keeper's queue of 256, media packets to their stream's buffer. The
Keeper takes them out, and answers ARP, ICMP and IGMP while the link is UP; a media packet leaves at the head of its queue.
Clauses that rest on the model's choices: log entries 2, 37, 38. -/
def Obligations.NetworkFrames : Prop :=
  ∀ (e : PEv) (s : State), e.p < 2 →
    let m := e.m
    let p := e.p
    let s0 := s.at e.t
    let r := s.realm m
    let link := s.onat m (o24_LINK_STATE + 16 * p)
    let fixed : Prop := s.onat m o24_PTP_PORT ≠ 2
    let port := s.nport m p
    let linkKeys := (o24_LINK_STATE + 16 * p) :: readyKeys
    let out := fun (old : List NetOut) (o : NetOut) => if linkOpen s m p = true then [macOut s0 m o] else old
    let rest := fun f => port.queue.eraseP (fun q => q.2 == f)
    (s.onat m (o24_LINK_ENABLE + 16 * p) = 1 → link = 0 → r.mode ≠ .dormant → r.sdref = true → Answers (.linkUp e) s (fun t =>
        RealmAlone m s t ∧ t.mems = s.mems ∧ t.onat m (o24_LINK_STATE + 16 * p) = 1 ∧ (t.realm m).bus.pend.getLsbD 15 = true
          ∧ (fixed → Becomes m linkKeys r s t)))
    ∧ (link = 1 → Answers (.linkDown e) s (fun t =>
        RealmAlone m s t ∧ t.mems = s.mems ∧ t.onat m (o24_LINK_STATE + 16 * p) = 0
          ∧ (fixed → Becomes m linkKeys r s t)
          ∧ (¬fixed → (s.ptp m).port = p → s.onat m (o24_LINK_STATE + 16 * (1 - p)) = 1 →
              (t.ptp m).port = 1 - p ∧ Counted m o24_PTP_FAILOVERS 1 s t)))
    ∧ (∀ b (switch ack : Bool),
        let y := s0.modNet m (fun n => { n with i2c := if switch = true then some (p + 1) else none })
        let x := (y.oput m (o24_MODULE_ID + 16 * p) (blob 96 b)).irq m 15
        let there : Prop := ack = true ∧ (switch = true ∨ p = 0)
        (there → link ≠ 2 → exec (.moduleIdRead e ⟨switch, ack⟩ b) s = .next x)
        ∧ (there → link = 2 → Answers (.moduleIdRead e ⟨switch, ack⟩ b) s (fun t =>
            Becomes m linkKeys (x.realm m) x t ∧ t.onat m (o24_LINK_STATE + 16 * p) = 0))
        ∧ (¬there → s.onat m (o24_LINK_ENABLE + 16 * p) ≠ 1 → exec (.moduleIdRead e ⟨switch, ack⟩ b) s = .next y)
        ∧ (¬there → s.onat m (o24_LINK_ENABLE + 16 * p) = 1 → Answers (.moduleIdRead e ⟨switch, ack⟩ b) s (fun t =>
            RealmAlone m s t ∧ t.mems = s.mems ∧ t.onat m (o24_LINK_STATE + 16 * p) = 2
              ∧ (fixed → Becomes m linkKeys (y.realm m) y t)))
        ∧ (there → telemetry s m = true → exec (.moduleDiagRead e ⟨switch, ack⟩ b) s =
            .next ((y.oput m (o24_MODULE_DIAG + 16 * p) (blob 16 b)).irq m 15))
        ∧ (¬there ∨ telemetry s m = false → exec (.moduleDiagRead e ⟨switch, ack⟩ b) s = .next y))
    ∧ (∀ f, link = 1 →
      let good : Prop := le f (f.length - 4) 4 = fcs32 (f.take (f.length - 4))
      let drop := s0.bump m (o24_RX_DROPS + 16 * p) 1
      (¬good → exec (.rxFrame e f) s = .next (s0.bump m (o24_FCS_ERRORS + 16 * p) 1))
      ∧ (good → frameOk s m p f = none → exec (.rxFrame e f) s = .next drop)
      ∧ (∀ o, good → frameOk s m p f = some o → be f o 2 = 0x0806 → exec (.rxFrame e f) s = .next (enqueued s0 m p 0 f))
      ∧ (∀ o, good → frameOk s m p f = some o → be f o 2 ≠ 0x0806 →
          let i := ipPacket f o
          let proto := byteAt i 9
          (ipOk s m p i = false → exec (.rxFrame e f) s = .next drop)
          ∧ (ipOk s m p i = true → proto = 2 ∨ (proto = 1 ∧ byteAt i 20 = 8 ∧ i.length ≤ 1500) →
              exec (.rxFrame e f) s = .next (enqueued s0 m p 0 f))
          ∧ (ipOk s m p i = true → proto ≠ 2 → proto ≠ 17 → ¬(proto = 1 ∧ byteAt i 20 = 8 ∧ i.length ≤ 1500) →
              exec (.rxFrame e f) s = .next drop)
          ∧ (ipOk s m p i = true → proto = 17 →
            let dg := i.drop 20
            let dport := be dg 2 2
            let ty := byteAt dg 8 % 16
            let ks := streams.filter (rxBelongs s m p (be i 16 4) (be i 12 4) dport)
            let event : Prop := dport = 319 ∨ dport = 320
            (event → ty = 0xC ∨ ty = 0xD ∨ dg.length < 42 → exec (.rxFrame e f) s = .next drop)
            ∧ (dport = 319 → ty ≠ 0xC → ty ≠ 0xD → 42 ≤ dg.length → ∃ st, Stamped s0 m st ∧ Answers (.rxFrame e f) s (fun t =>
                t = enqueued (({ s0 with free := t.free } : State).irq m 14) m p st f))
            ∧ (dport = 320 → ty ≠ 0xC → ty ≠ 0xD → 42 ≤ dg.length → exec (.rxFrame e f) s = .next (enqueued s0 m p 0 f))
            ∧ (¬event → ks = [] → exec (.rxFrame e f) s = .next
                (if dport = s.onat m o28_BILUNO_PORT then enqueued s0 m p 0 f else drop))
            ∧ (∀ k, ¬event → ks = [k] → Answers (.rxFrame e f) s (MediaTaken m p k (dg.drop 8) s0)))))
    ∧ (∀ f, let o := (etherOff s m p f).getD 12
        let a := (f.drop (o + 2)).take 28
        let sip := be a 14 4
        let arp : Prop := be a 0 6 = 0x000108000604
        let mine : Prop := be a 24 4 = ipAddr s m p ∧ ipAddr s m p ≠ 0
        let known : Prop := (arpMac s m p sip).isSome = true ∨ port.asking.contains sip = true
        let reply : NetOut := ⟨p, sip, 0, 0, 0, 0, 0, 0, arpPacket 2 (macAddr s m p) (ipAddr s m p) (be a 8 6) sip, 0, 0⟩
        (¬arp ∨ (¬mine ∧ ¬known) → exec (.arpMessage e f) s = .next (s0.modNport m p (fun x => { x with queue := rest f })))
        ∧ (arp → mine ∨ known → Answers (.arpMessage e f) s (fun t =>
            t = s0.modNport m p (fun x => { x with queue := rest f, arp := (t.nport m p).arp, asking := x.asking.filter (· != sip),
                                                   sent := if mine ∧ be a 6 2 = 1 then out port.sent reply else port.sent })
              ∧ (t.nport m p).arp.getLast? = some ⟨sip, be a 8 6, s0.now⟩
              ∧ (∀ y ∈ (t.nport m p).arp, y ∈ port.arp ∧ y.ip ≠ sip ∨ y = ⟨sip, be a 8 6, s0.now⟩)
              ∧ (port.arp.length ≤ 64 → (t.nport m p).arp.length ≤ 64))))
    ∧ (∀ ip, port.asking.contains ip = true → exec (.arpRetry e ip) s = .next (s0.modNport m p (fun x => { x with
        sent := out port.sent ⟨p, ip, 0, 0, 0, 0, 0, 0, arpPacket 1 (macAddr s m p) (ipAddr s m p) 0 ip, 0, 0⟩ })))
    ∧ (∀ ip, port.arp.any (fun a => a.ip == ip && decide (a.made + sec 300 ≤ s0.now)) = true →
        Answers (.arpCacheAgeing e ip) s (fun t =>
          t = s0.modNport m p (fun x => { x with arp := port.arp.filter (fun a => a.ip != ip),
                                                 asking := (t.nport m p).asking, sent := (t.nport m p).sent })
            ∧ ((neededHops s m p).contains ip = false → (t.nport m p).asking = port.asking ∧ (t.nport m p).sent = [])
            ∧ ((neededHops s m p).contains ip = true → ip ≠ 0 → (t.nport m p).asking.contains ip = true
                ∧ (port.asking.contains ip = false → (t.nport m p).sent =
                    out [] ⟨p, ip, 0, 0, 0, 0, 0, 0, arpPacket 1 (macAddr s m p) (ipAddr s m p) 0 ip, 0, 0⟩))))
    ∧ (∀ f, let i := ipPacket f ((etherOff s m p f).getD 12)
        let c := i.drop 20
        let now := s0.now / sec 1
        let n := if port.icmpSec = now then port.icmpNum else 0
        let sum := ipCheck ([0, 0, 0, 0] ++ c.drop 4)
        byteAt c 0 = 8 → byteAt c 1 = 0 → ipCheck c = 0 → c.length ≤ 1480 → n < 100 →
          exec (.icmpEcho e f) s = .next (s0.modNport m p (fun x =>
            { x with queue := rest f, icmpSec := now, icmpNum := n + 1,
                     sent := out port.sent ⟨p, be i 12 4, 1, 64, 0, 0, 0, sum, [0, 0] ++ toBe 2 sum ++ c.drop 4, 0, 0⟩ })))
    ∧ (∀ f, let c := (ipPacket f ((etherOff s m p f).getD 12)).drop 20
        let query : Prop := byteAt c 0 = 0x11 ∧ 8 ≤ c.length ∧ ipCheck c = 0
        let y := s0.modNport m p (fun x => { x with queue := rest f, sent := [] })
        let gs := reported (joined s m p)
        (¬query → exec (.igmpQuery ⟨e, f⟩) s = .next y)
        ∧ (query → c.length ≠ 8 → be c 4 4 = 0 → igmpVersion s0 m p = 3 → ∃ o : NetOut,
            exec (.igmpQuery ⟨e, f⟩) s = .next (y.modNport m p (fun x => { x with sent := out [] o }))
              ∧ o.port = p ∧ o.dst = 0xE0000016 ∧ o.proto = 2 ∧ o.data.take 2 = [0x22, 0]
              ∧ o.data.drop 4 = [0, 0] ++ toBe 2 gs.length ++ (gs.map (currentRecord (joined s m p))).flatten)
        ∧ (query → Answers (.igmpQuery ⟨e, f⟩) s (fun t => (t.nport m p).queue = rest f
            ∧ (c.length = 8 → (byteAt c 1 = 0 → (t.nport m p).igmpV1 = some s0.now)
              ∧ (byteAt c 1 ≠ 0 → (t.nport m p).igmpV2 = some s0.now) ∧ igmpVersion t m p ≠ 3))))
    ∧ (∀ q more, port.media = q :: more →
      (linkOpen s m p = false → exec (.packetDeparture e) s = .next s0)
      ∧ (linkOpen s m p = true → realmDrives r = false →
          exec (.packetDeparture e) s = .next (s0.modNport m p (fun x => { x with media := more })))
      ∧ (linkOpen s m p = true → realmDrives r = true → Answers (.packetDeparture e) s (fun t =>
          let data := if mediaSilenced s0 m then q.data.take 12 ++ List.replicate (q.data.length - 12) 0 else q.data
          let key := o26_TX_PACKETS + 16 * q.stream
          ∃ sport, sport < 65536 ∧
            let o : NetOut := udpOut s m p q.dst sport (rxo s m o26_300_UDP_PORT q.stream) (rxo s m o26_TX_TTL q.stream)
              (npobj s m o24_DSCP_MEDIA p) data
            t = ((({ s0 with free := t.free } : State).modNport m p (fun x => { x with media := more, sent := [macOut s0 m o] })).oput m key
              (((s.onat m key + 1) % 4294967296 : Nat) : Int)))))

/-- A Sync of the selected master gives the offset from it, a delay response the mean path delay; a two-step message is
discarded and counted; a master answers delay requests. An Announce enters the choice of the master; the receipt timeout turns
LOCKED into HOLDOVER and, where the realm may, any other state into GRANDMASTER.
Clauses that rest on the model's choices: log entries 2, 6, 39, 40. -/
def Obligations.TimeMessages : Prop :=
  ∀ (e : PEv) (s : State), e.p < 2 →
    let m := e.m
    let p := e.p
    let s0 := s.at e.t
    let st := tbState s m
    let x := s.ptp m
    let alone := fun (t : State) => RealmAlone m s t ∧ t.mems = s.mems
    (∀ f, let b := ptpMsg s m p f
        let ty := ptpType b
        let master : Prop := masterSrc s m = some (ptpSrc b)
        let mech := s.onat m o24_DELAY_MECH
        ptpOurs s m b = true → x.port = p → ∃ stamp : Int,
          (((s.nport m p).queue.find? (fun q => q.2 == f)).map (·.1) = some stamp
            ∨ (s.nport m p).queue.find? (fun q => q.2 == f) = none ∧ Stamped s0 m stamp)
        ∧ (ty = 0 → master → twoStep b = false → Answers (.ptpEventMessage e f) s (fun t =>
            let off := stamp - ptpTs b 34 - ptpCorr b - meanDelay s m
            alone t ∧ t.oget m o24_OFFSET = limit31 (off / 65536)
              ∧ (x.trial = none → st = 1 → x.stepped = false → (s.onat m o24_STEP_THRESHOLD * 65536 : Int) < off.natAbs →
                  (t.ptp m).stepped = true ∧ tbState t m = 1
                    ∧ (t.realm m).tb.base = ((tbUnits (s.realm m).tb s0.now : Int) - off * 65536).toNat)
              ∧ (x.trial = none → st = 2 → off.natAbs ≤ s.onat m o24_UNLOCK_THRESHOLD * 65536 → tbState t m = 2
                  ∧ (t.ptp m).bad = 0)
              ∧ (x.trial = none → st = 2 → s.onat m o24_UNLOCK_THRESHOLD * 65536 < off.natAbs → 3 ≤ x.bad → tbState t m = 1)))
        ∧ (ty = 0 ∨ ty = 3 → twoStep b = true → st ≠ 4 → Answers (.ptpEventMessage e f) s (fun t =>
            alone t ∧ ObjsBut m (o24_TWO_STEP_DISCARDS :: eventKeys) s t ∧ Counted m o24_TWO_STEP_DISCARDS 1 s t))
        ∧ (∀ t1 t2 c q t3, ty = 9 → master → mech = 0 → 54 ≤ b.length → x.sync = some (t1, t2, c) → x.delayReq = some (q, t3) →
            q = ptpSeq b → be b 44 10 = portId s m → Answers (.ptpEventMessage e f) s (fun t =>
              alone t ∧ ObjsBut m [o24_MEAN_PATH_DELAY] s t ∧ (t.ptp m).delayReq = none
                ∧ t.onat m o24_MEAN_PATH_DELAY =
                    Nat.min ((t2 - t1 - c + (ptpTs b 34 - ptpCorr b - t3)) / 2 / 65536).toNat 4294967295))
        ∧ (∀ q t1, ty = 3 → twoStep b = false → mech = 1 → 54 ≤ b.length → x.pdelayReq = some (q, t1) → q = ptpSeq b →
            be b 44 10 = portId s m → Answers (.ptpEventMessage e f) s (fun t =>
              alone t ∧ ObjsBut m [o24_MEAN_PATH_DELAY] s t ∧ (t.ptp m).pdelayReq = none
                ∧ t.onat m o24_MEAN_PATH_DELAY = Nat.min ((stamp - t1 - ptpCorr b) / 2 / 65536).toNat 4294967295))
        ∧ ((ty = 2 ∧ mech = 1) ∨ (ty = 1 ∧ mech = 0 ∧ st = 4) → Answers (.ptpEventMessage e f) s (fun t =>
            alone t ∧ ObjsBut m [] s t ∧ (linkOpen s m p = true → ∃ o, (t.nport m p).sent = [o] ∧ o.proto = 17
              ∧ o.dst = (if ty = 2 then 0xE000006B else 0xE0000181) ∧ o.dport = (if ty = 2 then 319 else 320)
              ∧ o.data.take 1 = [if ty = 2 then 3 else 9] ∧ slice o.data 30 2 = toBe 2 (ptpSeq b)))))
    ∧ (∀ f, let b := ptpMsg s m p f
        let a := announceData b
        let old := ((x.foreign.find? (fun y => y.port == p && y.data.src == a.src)).map (·.times)).getD []
        let g : Foreign := ⟨p, a, s0.now :: old.filter (fun t => decide (s0.now < t + 4 * announcePs s m))⟩
        let fs := g :: x.foreign.filter (fun y => !(y.port == p && y.data.src == a.src))
        let y := (fromQueue s0 m p f).modPtp m (fun z => { z with foreign := fs })
        ptpOurs s m b = true → ptpType b = 0xB → 64 ≤ b.length → be b 61 2 < 255 → evaluates s m p = true →
        Answers (.announce e f) s (fun t =>
          alone t ∧ (t.ptp m).foreign = (y.ptp m).foreign ∧ (bestOn y m x.port = none → t = y)
            ∧ (∀ best, bestOn y m x.port = some best →
                let own : Prop := s.onat m o24_SLAVE_ONLY = 0 ∧ better (ownData s m) best = true
                (own → tbState t m = 4) ∧ (own → st ≠ 4 → (t.ptp m).master = none ∧ t.onat m o24_GM_IDENTITY = clockId s m)
                ∧ (¬own → (t.ptp m).master = some best ∧ t.onat m o24_GM_IDENTITY = best.gm
                    ∧ (st = 0 ∨ st = 4 → tbState t m = 1) ∧ (st = 1 ∨ st = 2 ∨ st = 3 → tbState t m = st)))))
    ∧ (heard s0 m p = false → s.onat m o24_PTP_ENABLE ≠ 0 →
        let y := s0.modPtp m (fun z => { z with foreign := z.foreign.filter (fun f => f.port != p) })
        (x.port ≠ p → exec (.announceTimeout e) s = .next y)
        ∧ (x.port = p → s.onat m o24_PTP_PORT = 2 → (bestOn y m (1 - p)).isSome = true → Answers (.announceTimeout e) s (fun t =>
            alone t ∧ (t.ptp m).port = 1 - p ∧ Counted m o24_PTP_FAILOVERS 1 s t))
        ∧ (x.port = p → s.onat m o24_PTP_PORT ≠ 2 ∨ bestOn y m (1 - p) = none → Answers (.announceTimeout e) s (fun t =>
            alone t ∧ (t.ptp m).master = none ∧ (t.ptp m).foreign = (y.ptp m).foreign
              ∧ tbState t m = (if st = 2 then 3 else if s.onat m o24_SLAVE_ONLY = 0 then 4 else if st = 1 then 0 else st))))
    ∧ (let ev : Ev := ⟨e.t, m⟩
       let up : Prop := linkOpen s m x.port = true ∧ s.onat m o24_PTP_ENABLE ≠ 0
       let one := fun (kind dport dst : Nat) (c : Nat) => Answers (.ptpMessageTransmit ev c) s (fun t =>
          alone t ∧ ObjsBut m [] s t ∧ ∃ o, (t.nport m x.port).sent = [o] ∧ o.proto = 17 ∧ o.dst = dst ∧ o.dport = dport
            ∧ o.data.take 1 = [BitVec.ofNat 8 kind])
       (up → st = 4 → one 0 319 0xE0000181 0 ∧ one 0xB 320 0xE0000181 0xB)
        ∧ (up → st ≠ 4 → x.master.isSome = true → s.onat m o24_DELAY_MECH = 0 → one 1 319 0xE0000181 1)
        ∧ (up → s.onat m o24_DELAY_MECH = 1 → one 2 319 0xE000006B 2)
        ∧ exec (.timebaseSecond ev) s = .next ((s0.oput m o24_PTP_TIME (tsInt (s0.tbNs m))).irq m 18)
        ∧ ((s.net m).ppsIn.all (fun t => decide (t + ms 500 ≤ s0.now)) = true → ∃ stamp, Stamped s0 m stamp
            ∧ Answers (.ppsInEdge ev) s (fun t =>
              let n := stamp / 65536
              t = ((({ s0 with free := t.free } : State).modNet m (fun x => { x with ppsIn := some s0.now })).oput m
                    o24_PPS_IN_TS (tsInt n.toNat)).oput m o24_PPS_IN_ERROR
                    (if n % 1000000000 ≤ 500000000 then n % 1000000000 else n % 1000000000 - 1000000000)))
        ∧ ((s.net m).ppsIn.all (fun t => decide (t + ms 500 ≤ s0.now)) = false → exec (.ppsInEdge ev) s = .next s0))

/-! ## Messages, mailboxes and notifications (12, 15, 17) -/

/-- A message from the network passes the checks in their order: a wrong MAGIC is counted and dropped, a wrong version, length, CRC,
session, tag or SEQUENCE is answered with its error, a SEQUENCE seen before gets the reply that was kept, and a message that passes
runs its operations as its session. The partner's answers and the timeout let the first forwarded message go on; an idle
session closes with its subscriptions.
Clauses that rest on the model's choices: log entries 54, 55, 56, 65. -/
def Obligations.MessageEvents : Prop :=
  ∀ (e : Ev) (s : State),
    let m := e.m
    let s0 := s.at e.t
    let r := s.realm m
    let q := clearSent (clearSent s0 m 0) m 1
    let now := s0.now / sec 1
    let fails := if r.bil.failSecond = now then r.bil.failCount else 0
    (∀ origin d, served s m = true → origPort origin < 2 →
      let u := (takeUdp q m (origPort origin) d).bump m o28_RX_MESSAGES 1
      let h := header d
      let c := Instr.requestMessage e origin d
      let bad := fun (v : State) (code detail : Nat) (key : Option (List Byte)) =>
        Answers c s (Replied m origin (message 1 h.sess h.seq [errorOp 0 code detail] key) v)
      let failed := fun (code counter : Nat) =>
        let v := u.bump m counter 1
        (fails < 100 → bad (v.modBil m (fun b => { b with failSecond := now, failCount := fails + 1 })) code 0 none)
          ∧ (100 ≤ fails → exec c s = .next v)
      let good : Prop := d.take 2 = magic ∧ h.reply = false
      let opens : Prop := h.sess = 0 ∧ h.tagged = false ∧ h.count = 1 ∧ le d 16 1 = 7
      (d.take 2 ≠ magic ∨ (h.reply = true ∧ (h.notify = false ∨ h.sess ≠ 0)) → exec c s = .next (u.bump m o28_MALFORMED_COUNT 1))
      ∧ (∀ code detail, good → checkOuter d d.length 1472 = some (code, detail) → code ≠ 3 → bad u code detail none)
      ∧ (∀ detail, good → checkOuter d d.length 1472 = some (3, detail) → failed 3 o28_CRC_ERRORS)
      ∧ (good → checkOuter d d.length 1472 = none →
        (¬opens → s.session m h.sess = none → bad u 5 0 none)
        ∧ (∀ x, ¬opens → s.session m h.sess = some x →
          let key := if x.tagged then some x.sk else none
          let same : Prop := h.tagged = x.tagged ∧ (x.tagged = true → tagOk d x.sk = true)
          (h.tagged ≠ x.tagged → bad u 5 0 none)
          ∧ (h.tagged = true → x.tagged = true → tagOk d x.sk = false → failed 4 o28_AUTH_FAILS)
          ∧ (∀ y, same → x.replies.find? (fun y => y.1 == h.seq) = some y → Answers c s (Replied m origin y.2
              (u.modSession m h.sess (fun z => { z with lastAt := s0.now, origin := origin }))))
          ∧ (same → x.replies.find? (fun y => y.1 == h.seq) = none → h.seq ≤ x.high → bad u 6 0 key)
          ∧ (same → x.replies.find? (fun y => y.1 == h.seq) = none → x.high < h.seq →
            (∀ code detail, checkInner d 64 = some (code, detail) → bad u code detail key)
            ∧ (∀ a, checkInner d 64 = none →
              let y := u.modSession m h.sess (fun z => { z with high := h.seq, lastAt := s0.now, origin := origin })
              askerOf y m h.sess = some a → exec c s = .next (runMessage y ⟨h.sess, h.seq, none, origin, false⟩ a key (opsOf d)))))))
    ∧ (∀ w rest d, served s m = true → r.bil.fwds = w :: rest →
      (∀ ps, parseOps d d.length (w.ops.filter forwardOp).length 0 = (ps, none) →
        (askerOf q m w.src.sess = none → exec (.forwardReply e d) s = .next (q.modBil m (fun b => { b with fwds := rest })))
        ∧ ((∀ p ∈ ps, p.code = 0x80 ∨ p.code = 0x81) → exec (.forwardReply e d) s = .next (finishFwd q m w none))
        ∧ (¬(∀ p ∈ ps, p.code = 0x80 ∨ p.code = 0x81) → exec (.forwardReply e d) s = .next (finishFwd q m w (some ps))))
      ∧ (let late : Prop := w.at0 + us 400 ≤ s0.now ∨ partnerRole s0 m ≠ some 2
         let x := q.modPair m (fun p => { p with stepLost := true, matched := 0 })
         (late → exec (.forwardTimeout e) s = .next (finishFwd x m w none))
         ∧ (late → askerOf x m w.src.sess = none → exec (.forwardTimeout e) s = .next (x.modBil m (fun b => { b with fwds := rest })))
         ∧ (¬late → exec (.forwardTimeout e) s = .next q)))
    ∧ (∀ sid, Answers (.sessionTimeout e sid) s (fun t =>
        let gone := fun (x : Session) => x.id = sid ∧ x.lastAt + sec (s.onat m o28_SESSION_TIMEOUT) ≤ s0.now
        t = s0.modBil m (fun b => { b with sessions := (t.realm m).bil.sessions, subs := (t.realm m).bil.subs })
          ∧ (∀ x, x ∈ (t.realm m).bil.sessions ↔ x ∈ r.bil.sessions ∧ ¬gone x)
          ∧ (∀ u, u ∈ (t.realm m).bil.subs ↔ u ∈ r.bil.subs ∧ ¬(∃ x ∈ r.bil.sessions, gone x ∧ u.sess = x.id))))

/-- Ten calm windows lower SHED_LEVEL by one, a window above 90% raises it, up to 4; METER rates halve from level 2 on, not below
10 Hz. A CHANGE notification names what has changed and waits 10 ms, a METER notification names everything at its rate, events
leave one at a time with those of P0 first; the host's notifications go through mailbox 3.
Clauses that rest on the model's choices: log entries 62, 63, 69. -/
def Obligations.Notifications : Prop :=
  ∀ (e : Ev) (s : State), served s e.m = true →
    let m := e.m
    let s0 := s.at e.t
    let r := s.realm m
    let q := clearSent (clearSent s0 m 0) m 1
    let shed := s.onat m o28_SHED_LEVEL
    (∀ busy, Answers (.shedWindow e busy) s (fun t =>
      let calm := if busy < 60 then r.bil.calm + 1 else 0
      let level := if 90 < busy then Nat.min 4 (shed + 1) else if 10 ≤ calm then shed - 1 else shed
      let step := decide (r.bil.shedAt + ms 100 ≤ s0.now)
      let b : BilSt := { r.bil with calm := if 10 ≤ calm then 0 else calm, shedAt := if step then s0.now else r.bil.shedAt }
      Becomes m ([o2A_KEEPER_BUSY, o28_SHED_LEVEL] ++ eventKeys) { r with bil := b } s t
        ∧ t.onat m o2A_KEEPER_BUSY = Nat.min busy 100 ∧ t.onat m o28_SHED_LEVEL = level
        ∧ (level ≠ shed → Raised m 0x2802 o28_SHED_LEVEL s t)
        ∧ (∀ u ∈ r.bil.subs, u.kind = 1 → ({ u with cur := if step then
              (if 2 ≤ level then Nat.max 10 (u.cur / 2) else Nat.min u.rate (2 * u.cur)) else u.cur } : Sub) ∈ (t.realm m).bil.subs)
        ∧ (∀ u ∈ r.bil.subs, u.kind = 0 →
            ({ u with sent := if shed = 3 ∧ level = 2 then [] else u.sent } : Sub) ∈ (t.realm m).bil.subs)))
    ∧ (∀ sub u, subOf s m sub = some u → u.kind = 0 → shed < 3 → u.lastAt + ms 10 ≤ s0.now →
        u.sess ≠ hostSession ∨ r.bil.hostQ = [] →
        let vals := subVals q m u
        let ops := ((subKeys u).zip (vals.mapIdx (fun j v => (v, u.sent.getD j [])))).filter (fun x => x.2.1 != x.2.2) |>.map
          (fun x => (⟨0x84, 0, subOid m u x.1, x.2.1⟩ : Op))
        (ops = [] → exec (.changeNotify e sub) s = .next q)
        ∧ (ops ≠ [] → fitsOne s m u ops → exec (.changeNotify e sub) s = .next
            (modSub (notified q m u false ops) m sub (fun u => { u with sent := vals, lastAt := s0.now }))))
    ∧ (∀ sub u, subOf s m sub = some u → u.kind = 1 → u.id = sub → u.lastAt + sec 1 / u.cur ≤ s0.now →
        let ops := ((subKeys u).zip (subVals q m u)).map (fun x => (⟨0x84, 0, subOid m u x.1, x.2⟩ : Op))
        ops ≠ [] → fitsOne s m u ops → exec (.meterNotify e sub) s = .next
          (modSub (notified q m u false ops) m sub (fun u => { u with lastAt := s0.now })))
    ∧ (∀ sub u x, subOf s m sub = some u → u.kind = 2 → nextRecord u.queue = some x →
        (∀ y, s.session m u.sess = some y → origPort y.origin < 2) →
        x ∈ u.queue ∧ (x.p0 = false → ∀ y ∈ u.queue, y.p0 = false)
        ∧ (x.p0 = true ∨ (shed < 3 ∧ (u.sess ≠ hostSession ∨ r.bil.hostQ = [])) → exec (.eventNotify e sub) s = .next
            (modSub (notified q m u x.p0 [⟨0x84, 0, 0, eventBytes x⟩]) m sub (fun u => { u with queue := u.queue.erase x })))
        ∧ (x.p0 = false → 3 ≤ shed → exec (.eventNotify e sub) s = .next q))
    ∧ (∀ x rest, r.bil.hostQ = x :: rest → s.hub.ready = true →
        let n := 4 * m.val + 3
        let d := message 5 hostSession ((r.bil.hostSeq + 1) % 4294967296) x.ops none
        ((boxOf s.hub n).state = 0 ∨ (boxOf s.hub n).state = 3 → exec (.notifyPlaced e) s = .next
          (((s0.modBil m (fun b => { b with hostSeq := b.hostSeq + 1, hostQ := rest })).modBox n (fun b =>
            { b with state := 2, seq := (r.bil.hostSeq + 1) % 65536, buffer := d, length := d.length, taken := none })).hirq (14 + m.val)))
        ∧ ((boxOf s.hub n).state = 1 ∨ (boxOf s.hub n).state = 2 → exec (.notifyPlaced e) s = .next s0))

/-- A realm's Keeper takes the request of a mailbox once, checks and runs it, and places the reply, which makes the mailbox
READY; the Host Hub does so for the device mailbox. One that cannot be answered stays PENDING.
Clauses that rest on the model's choices: log entries 54, 61. -/
def Obligations.MailboxesAreServed : Prop :=
  ∀ (t0 : Time) (s : State),
    let s0 := s.at t0
    (∀ box : Fin 17, box.val < 16 → (boxOf s.hub box.val).state = 1 → served s (boxRealm box.val) = true →
      let n := box.val
      let k := boxRealm n
      let b := boxOf s.hub n
      let c := Instr.mailboxReply t0 box
      let x := boxMessage b
      let h := header x.1
      let u := (s0.modBox n (fun b => { b with taken := some [] })).bump k o28_RX_MESSAGES 1
      let bad := fun (code detail : Nat) => Answers c s (Placed k n (message 1 h.sess h.seq [errorOp 0 code detail] none) u)
      let good : Prop := b.taken = none ∧ x.1.take 2 = magic ∧ h.reply = false
      (∀ d, b.taken = some d → d ≠ [] → exec c s = .next ((s0.modBox n (fun b =>
          { b with state := 2, buffer := d, length := d.length, taken := none })).hirq (10 + n / 4)))
      ∧ (b.taken = some [] → exec c s = .next s0)
      ∧ (b.taken = none → x.1.take 2 ≠ magic ∨ h.reply = true → exec c s = .next (u.bump k o28_MALFORMED_COUNT 1))
      ∧ (∀ code detail, good → checkOuter x.1 x.2 1024 = some (code, detail) → code ≠ 3 → bad code detail)
      ∧ (good → checkOuter x.1 x.2 1024 = none → h.sess ≠ hostSession ∨ h.tagged = true → bad 5 0)
      ∧ (good → checkOuter x.1 x.2 1024 = none → h.sess = hostSession → h.tagged = false →
        (∀ code detail, checkInner x.1 62 = some (code, detail) → bad code detail)
        ∧ (checkInner x.1 62 = none →
            let y := u.modSession k hostSession (fun z => { z with high := h.seq, lastAt := s0.now, origin := 0 })
            exec c s = .next (placeTaken (runMessage y ⟨h.sess, h.seq, some n, 0, false⟩ (hostAsker k) none (opsOf x.1)) n))))
    ∧ (s.hub.ready = true → (boxOf s.hub 16).state = 1 → (boxOf s.hub 16).taken = none →
      let c := Instr.deviceMailboxOperation t0
      let x := boxMessage (boxOf s.hub 16)
      let h := header x.1
      let u := s0.modBox 16 (fun b => { b with taken := some [] })
      let place := fun (v : State) (d : List Byte) => (v.modBox 16 (fun b =>
        { b with state := 2, buffer := d, length := d.length, taken := none })).hirq 22
      let bad := fun (code detail : Nat) => exec c s = .next (place u (message 1 h.sess h.seq [errorOp 0 code detail] none))
      let good : Prop := x.1.take 2 = magic ∧ h.reply = false
      (¬good → exec c s = .next u)
      ∧ (∀ code detail, good → checkOuter x.1 x.2 1024 = some (code, detail) → bad code detail)
      ∧ (good → checkOuter x.1 x.2 1024 = none → h.sess ≠ hostSession ∨ h.tagged = true → bad 5 0)
      ∧ (good → checkOuter x.1 x.2 1024 = none → h.sess = hostSession → h.tagged = false →
        (∀ code detail, checkInner x.1 62 = some (code, detail) → bad code detail)
        ∧ (checkInner x.1 62 = none →
          let y := runOps u ⟨hubAsker, 0, false, 0, opsOf x.1⟩
          ((boxOf y.state.hub 16).state = 1 → exec c s = .next (place y.state (replyBytes 1024 h.sess h.seq y.replies none)))
          ∧ ((boxOf y.state.hub 16).state ≠ 1 → exec c s = .next y.state))))

/-! ## The host port (15) -/

/-- A READ or a WRITE is refused for its opcode or CONTROL, for its alignment, for a reserved region or an aperture of a DORMANT
realm; a READ delivers registers, mailbox bytes or memory; a WRITE goes to registers, to a mailbox or is posted, up to two at a
time. Reading the result of a READY mailbox makes it TAKEN, writing BUFFER makes it EMPTY, a doorbell makes it PENDING. While the
port is not open every command is ignored.
Clauses that rest on the model's choices: log entries 44, 45. -/
def Obligations.HostPortCommands : Prop :=
  ∀ (t0 : Time) (op : BitVec 16) (s : State),
    let s0 := s.at t0
    let z := s0.modHub (fun h => { h with octal := h.octalNext })
    let free : Prop := HubQuiet s ∧ s.hub.posted = []
    let opened := fun (code : Nat) => op.toNat % 256 = code ∧ (s.hub.octalNext = true → op.toNat / 256 = 255 - code)
    let boxesKept := fun (t : State) => ∀ k, boxOf t.hub k = boxOf s.hub k
    (portOpen s = false → ∀ (a : BitVec 32) (ctl n off : Nat) (d : List Byte) (b : Fin 17) (v : Bool),
      ∀ c ∈ [Instr.xspiRead t0 op a ctl n, .xspiWrite t0 op a ctl d, .readStatus t0, .readId t0, .octalSwitch t0 v,
        .mbBufferWrite t0 b off d, .mbDoorbell t0 b n, .resultRead t0 b off n], exec c s = .next s0)
    ∧ (portOpen s = true →
      exec (.readId t0) s = .next (z.modHub (fun h => { h with out := toLe 4 0x50450780 ++ toLe 4 0xB1 }))
      ∧ (∀ v, exec (.octalSwitch t0 v) s = .next (z.modHub (fun h => { h with octalNext := v, code := 0, done := 1 })))
      ∧ (free → exec (.readStatus t0) s = .next (z.modHub (fun h => { h with out := toLe 4 (s.hub.done * 65536 + s.hub.code) })))
      -- READ
      ∧ (∀ (a : BitVec 32) (ctl clocked : Nat),
        let c := Instr.xspiRead t0 op a ctl clocked
        let len := ctl % 4096 + 1
        let good : Prop := opened 0x0B ∧ ctlOk ctl = true
        (¬good → Answers c s (fun t => Ended 8 0 s t ∧ t.hub.out = [] ∧ boxesKept t))
        ∧ (good → alignOk a.toNat ctl = false → Answers c s (fun t => Ended 7 0 s t ∧ t.hub.out = [] ∧ boxesKept t))
        ∧ (good → alignOk a.toNat ctl = true → (regionOf a.toNat).1 = .reserved →
            Answers c s (fun t => Ended 2 0 s t ∧ boxesKept t))
        ∧ (∀ m, good → alignOk a.toNat ctl = true → (regionOf a.toNat).1 = .aper m → (s.realm m).mode = .dormant →
            Answers c s (fun t => Ended 5 0 s t ∧ boxesKept t ∧ t.hub.ipend.getLsbD (18 + m.val) = true))
        ∧ (good → ctlMode ctl = 0 → a.toNat + len ≤ 0x1000 → (∀ i, i < len → (a.toNat + i) / 4 * 4 ≠ 0x8C) →
            Answers c s (fun t => Ended (if clocked = len then 0 else 9) len s t ∧ boxesKept t
              ∧ t.hub.out = (regBytes s a.toNat len).take clocked ++ List.replicate (clocked - len) 0))
        ∧ (∀ m bank vec, good → free → ctl = 15 → clocked = 16 → a.toNat % 16 = 0 → (regionOf a.toNat).1 = .aper m →
            let k := 0xF0000000 + a.toNat % 0x10000000
            (s.realm m).mode ≠ .dormant → MasterFree s m 3 → place (s.realm m) 3 (beatAddr k 0) false = .mem bank vec →
            CleanVec (s.mem m) bank vec →
            let d := (getVec (s.mem m) bank vec).1.map (·.data)
            exec c s = .next ((answer z m 3 ⟨[d], [0], false⟩).modHub (fun h => { h with out := lanesBytes d, code := 0, done := 16 }))))
      -- WRITE
      ∧ (∀ (a : BitVec 32) (ctl : Nat) (d : List Byte),
        let c := Instr.xspiWrite t0 op a ctl d
        let good : Prop := opened 0x02 ∧ ctlOk ctl = true
        (¬good → Answers c s (fun t => Ended 8 0 s t ∧ boxesKept t))
        ∧ (good → alignOk a.toNat ctl = false → Answers c s (fun t => Ended 7 0 s t ∧ boxesKept t))
        ∧ (good → alignOk a.toNat ctl = true → (regionOf a.toNat).1 = .reserved →
            Answers c s (fun t => Ended 2 0 s t ∧ boxesKept t))
        ∧ (∀ m, good → alignOk a.toNat ctl = true → (regionOf a.toNat).1 = .aper m →
          ((s.realm m).mode = .dormant → Answers c s (fun t => Ended 5 0 s t ∧ boxesKept t))
          ∧ ((s.realm m).mode ≠ .dormant → 2 ≤ s.hub.posted.length + (if s.hub.drain.isSome then 1 else 0) →
              Answers c s (fun t => Ended 6 0 s t ∧ boxesKept t))
          ∧ ((s.realm m).mode ≠ .dormant → s.hub.posted.length + (if s.hub.drain.isSome then 1 else 0) < 2 →
              ∃ b : Burst, exec c s = .next (z.modHub (fun h => { h with posted := h.posted ++ [b] }))
                ∧ b.status = false ∧ b.realm = m ∧ b.write = true ∧ b.issued = false ∧ b.got = [] ∧ b.poison = false
                ∧ b.len = ctl % 4096 + 1 ∧ b.short = decide (d.length ≠ ctl % 4096 + 1)
                ∧ (ctl = 15 → a.toNat % 16 = 0 → d.length = 16 → b.code = 0
                    ∧ b.txs = [⟨0xF0000000 + a.toNat % 0x10000000, 16, d⟩])
                ∧ (d.length < ctl % 4096 + 1 → b.txs = [])))
        ∧ (∀ m v, opened 0x02 → ctl = 3 → d = toLe 4 v → v < 4294967296 → a.toNat < 0x1000 → a.toNat % 4 = 0 →
            exec c s = exec (.registerWrite ⟨t0, m⟩ 6 a.toNat (BitVec.ofNat 32 v)) s)
        ∧ (∀ (b : Fin 17) (off : Nat), opened 0x02 → d ≠ [] → ctl + 1 = d.length → off + d.length ≤ 0x400 →
            a.toNat = 0x10000 + 0x800 * b.val + 0x400 + off → exec c s = exec (.mbBufferWrite t0 b off d) s))
      -- mailboxes
      ∧ (∀ (b : Fin 17) (off : Nat) (d : List Byte), off < 0x400 → d ≠ [] →
        let n := b.val
        let x := boxOf s.hub n
        let l := Nat.min d.length (0x400 - off)
        let c := Instr.mbBufferWrite t0 b off d
        ((n < 16 ∧ n % 4 = 3) ∨ x.state = 1 → Answers c s (fun t => Ended 6 0 s t ∧ boxesKept t))
        ∧ (¬(n < 16 ∧ n % 4 = 3) → x.state ≠ 1 → Answers c s (fun t =>
            let y := boxOf t.hub n
            Ended 0 l s t ∧ BoxesBut n s t ∧ y.state = 0 ∧ y.seq = x.seq ∧ y.abandoned = x.abandoned
              ∧ (∀ i, y.buffer.getD i 0 = if off ≤ i ∧ i < off + l then d.getD (i - off) 0
                    else if x.state = 0 then x.buffer.getD i 0 else 0))))
      ∧ (∀ (b : Fin 17) (seq : Nat),
        let n := b.val
        let x := boxOf s.hub n
        let c := Instr.mbDoorbell t0 b seq
        let up := boxServed s n
        (n < 16 → n % 4 = 3 → Answers c s (fun t => Ended 6 0 s t ∧ boxesKept t))
        ∧ (¬(n < 16 ∧ n % 4 = 3) → x.state ≠ 0 → Answers c s (fun t => Ended 10 0 s t ∧ boxesKept t))
        ∧ (¬(n < 16 ∧ n % 4 = 3) → x.state = 0 → up = false → Answers c s (fun t => Ended 5 0 s t ∧ boxesKept t))
        ∧ (¬(n < 16 ∧ n % 4 = 3) → x.state = 0 → up = true → free →
            let y := z.modBox n (fun b =>
              { b with state := 1, seq := seq % 65536, abandoned := false, length := 0, taken := none, rung := s0.now })
            let w := if n < 16 then y.irq (boxRealm n) 11 else y
            exec c s = .next (w.modHub (fun h => { h with code := 0, done := 4 }))))
      ∧ (∀ (b : Fin 17) (off len : Nat), 0 < len → off + len ≤ 0x400 →
        let n := b.val
        let x := boxOf s.hub n
        let c := Instr.resultRead t0 b off len
        let bytes := fun (k : Nat) => (List.range len).map (fun i => if off + i < k then x.buffer.getD (off + i) 0 else 0)
        (x.state = 1 → Answers c s (fun t => Ended 12 len s t ∧ boxesKept t ∧ t.hub.out = List.replicate len 0))
        ∧ (x.state = 2 → Answers c s (fun t => Ended 0 len s t ∧ BoxesBut n s t ∧ boxOf t.hub n = { x with state := 3 }
            ∧ t.hub.out = bytes x.length))
        ∧ (x.state = 3 → Answers c s (fun t => Ended 0 len s t ∧ boxesKept t ∧ t.hub.out = bytes x.length))
        ∧ (x.state = 0 → Answers c s (fun t => Ended 0 len s t ∧ boxesKept t ∧ t.hub.out = bytes 0x400))
        ∧ (∀ a : BitVec 32, opened 0x0B → a.toNat = 0x10000 + 0x800 * n + 0x400 + off →
            exec (.xspiRead t0 op a (len - 1) len) s = exec c s)))

/-- The oldest posted write drains into its realm; an access of 2 ms ends with TIMEOUT and its master is reset. The copy of the DEV
objects follows them. HS_RST_N resets the Host Hub: mailboxes EMPTY, registers as at reset, the objects of the always-on island
kept; HUB_READY opens the port.
Clauses that rest on the model's choices: log entries 44, 45. -/
def Obligations.HubRunsAndResets : Prop :=
  ∀ (e : Ev) (s : State),
    let m := e.m
    let s0 := s.at e.t
    let h := s.hub
    let freed := fun (j : RealmId) (t : State) =>
      let b := (s.realm j).bus
      { b with resetting := (t.realm j).bus.resetting, waiting := b.waiting.filter (fun w => w.master != 3) }
    (HubQuiet s → ∀ b rest, h.posted = b :: rest →
      (b.realm ≠ m → exec (.postedWriteDrain e) s = .next s0)
      ∧ (∀ d addr bank vec, b.realm = m → b.write = true → b.txs = [⟨addr, 16, d⟩] → d.length = 16 → addr % 16 = 0 →
          b.issued = false → b.code = 0 → b.short = false → b.poison = false →
          (s.realm m).mode ≠ .dormant → MasterFree s m 3 → place (s.realm m) 3 (beatAddr addr 0) true = .mem bank vec →
          Answers (.postedWriteDrain e) s (fun t => ∃ u, BusAlone m [] (s0.modHub (fun h => { h with posted := rest })) u
            ∧ u.mem m = putVec (s.mem m) bank vec ((lanesOf d).map (freshLane bank))
            ∧ t = u.modHub (fun h => { h with code := 0, done := b.len })))
      ∧ (b.realm = m → b.txs ≠ [] → b.issued = false → b.got = [] → b.write = true → (s.realm m).mode = .dormant →
          Answers (.postedWriteDrain e) s (fun t => RealmsKept s t ∧ t.hub.posted = rest ∧ t.hub.drain = none ∧ t.hub.code = 5
            ∧ t.hub.done = 0 ∧ t.hub.sticky = h.sticky ||| BitVec.ofNat 32 (2 ^ 5)
            ∧ t.hub.ipend = h.ipend ||| BitVec.ofNat 32 (2 ^ 23) ||| BitVec.ofNat 32 (2 ^ (18 + m.val)))))
    ∧ (∀ b, h.drain = some b → h.read = none → h.bells = [] → h.posted = [] → b.status = false → b.realm = m → b.write = true →
        (s0.now < b.since + ms 2 → exec (.apertureTimeout e) s = .next s0)
        ∧ (b.since + ms 2 ≤ s0.now → Answers (.apertureTimeout e) s (fun t =>
          let key := o02_APERTURE_TIMEOUTS + 16 * m.val
          t.pending = s.pending ∧ t.mems = s.mems ∧ (∀ j, j ≠ m → t.realm j = s.realm j)
            ∧ (b.issued = true → t.realm m = { s.realm m with bus := freed m t }
                ∧ tget 0 (t.realm m).bus.resetting 3 = s0.now + 1)
            ∧ (b.issued = false → t.realm m = s.realm m)
            ∧ t.hub = { h with drain := none, objs := t.hub.objs, code := 4, done := b.got.length,
                               sticky := h.sticky ||| BitVec.ofNat 32 (2 ^ 4),
                               ipend := h.ipend ||| BitVec.ofNat 32 (2 ^ 23) ||| BitVec.ofNat 32 (2 ^ (18 + m.val)) }
            ∧ t.hget key = (Nat.min ((s.hget key).toNat + 1) 0xFFFFFFFF : Nat)
            ∧ ∀ k, k ≠ key → t.hget k = s.hget k)))
    ∧ (∀ b, h.read = some b → b.status = false → b.realm = m → b.since + ms 2 ≤ s0.now →
        (∀ d, h.drain = some d → d.realm ≠ m) → Answers (.apertureTimeout e) s (fun t =>
          t.hub.read = none ∧ t.hub.sticky.getLsbD 4 = true ∧ t.hub.ipend.getLsbD (18 + m.val) = true))
    ∧ (h.ready = true → Answers (.devCopyRefresh e.t) s (fun t =>
        t = s0.modHub (fun h => { h with copy := t.hub.copy }) ∧ ∀ k ∈ devKeys, copyGet t k = devGet s0 k))
    ∧ (h.ready = false → exec (.devCopyRefresh e.t) s = .next s0)
    ∧ Answers (.hsRstN e.t) s (fun t =>
        t.pending = s.pending ∧ t.mems = s.mems
          ∧ t.hub = { Hub.reset with mode := h.mode, objs := t.hub.objs, copy := h.copy, released := s0.now, vout := h.vout,
                                     voutAt := h.voutAt, power := h.power, fuse := h.fuse, testEn := h.testEn, tap := h.tap }
          ∧ (∀ j, t.hub.mirror.get j = 0) ∧ (∀ n, boxOf t.hub n = Mailbox.empty) ∧ t.hub.ready = false ∧ t.hub.imask = BitVec.allOnes 32
          ∧ (∀ k, k ≠ o02_VCORE_SETPOINT → k ≠ o02_SWEEP_REALM → t.hget k = if k / 1048576 = 3 then s.hget k else objDflt k)
          ∧ ∀ j, ObjsBut j [o12_VCORE_MERGED] s t ∧ tget 0 (t.realm j).bus.resetting 3 = s0.now + 1
              ∧ t.realm j = { s.realm j with objs := (t.realm j).objs, bus := freed j t })
    ∧ (h.mode = .hub → h.power.seq = 0 → Answers (.hubReady e.t) s (fun t =>
        t = s0.modHub (fun h => { h with ready := true, fuses := true, avs := true, watcher := true, mirror := t.hub.mirror,
                                         ipend := t.hub.ipend })
          ∧ ∀ j, t.hub.mirror.get j = (s.realm j).ready
            ∧ (h.mirror.get j ≠ (s.realm j).ready → t.hub.ipend.getLsbD (6 + j.val) = true)))
    ∧ (h.mode ≠ .hub ∨ h.power.seq ≠ 0 → exec (.hubReady e.t) s = .next s0)

/-! ## Power and the always-on island (16; 15 R528 to R531) -/

/-- A wake source that is enabled starts the power-up sequence, joins the causes while it runs or in HUB, and waits during a
power-down. The outputs rise each 100 µs after its predecessor's rails are good, and fall 1 ms apart; a rail that fails, or is late,
takes the device down. Removing VAON makes it OFF, power-on reset resets it whole. A burn ends with the hash that the fuses
read; a test-port instruction other than IDCODE and BYPASS decodes as BYPASS while a realm is in service.
Clauses that rest on the model's choices: log entries 15, 33, 46, 47, 48. -/
def Obligations.PowerSequences : Prop :=
  ∀ (t0 : Time) (xo sdref : BitVec 4) (s : State),
    let s0 := s.at t0
    let now := s0.now
    let p := s.hub.power
    let power := fun (p : Power) => s0.modHub (fun h => { h with power := p })
    let down := fun (p : Power) (leave : Nat) => { p with
      seq := 2, leave := leave, request := none, en := p.en - 1, stepAt := now,
      good := p.good.filter (fun r => decide (railOutput r < p.en - 1)) }
    let qualifies := fun (c : Instr) (src : Nat) (p : Power) =>
      let b := power p
      let cause := (s.hget o03_WAKE_CAUSE).toNat
      let on : Prop := s.hub.mode ≠ .off ∧ wakeEnabled s src = true
      (¬on → exec c s = .next b)
      ∧ (on → p.seq = 2 ∨ p.request.isSome = true → exec c s = .next (power { p with wakes := orBit p.wakes src }))
      ∧ (on → p.seq ≠ 2 → p.request = none →
        (s.hub.mode = .hub → exec c s = .next ((b.hput o03_WAKE_CAUSE (orBit cause src : Nat)).hirq 24))
        ∧ (s.hub.mode ≠ .hub → p.seq = 1 → exec c s = .next (b.hput o03_WAKE_CAUSE (orBit cause src : Nat)))
        ∧ (s.hub.mode ≠ .hub → p.seq ≠ 1 → exec c s = .next ((b.hput o03_WAKE_CAUSE (orBit p.wakes src : Nat)).modHub (fun h =>
            { h with power := { p with seq := 1, en := if p.en = 0 then 1 else p.en, stepAt := now, timer := none, faulted := false,
                                       fell := none, wakes := 0 } }))))
    let wiped := fun (t : State) => ∀ m, (t.realm m).mode = .dormant ∧ (t.realm m).parked = false ∧ (t.realm m).trans = none
      ∧ (t.frame m).stA = 0 ∧ (t.frame m).stB = 0 ∧ (∀ k, t.tile m k = Tile.reset)
      ∧ (∀ k, k ≠ o12_VCORE_MERGED → t.oget m k = realmDflt m k)
    let unstarted := fun (u t : State) => t.pending = u.pending ∧ t.mems = u.mems ∧ t.hub = u.hub
      ∧ ∀ m, t.realm m = { u.realm m with memory := { (u.realm m).memory with startWaits := false } }
    let ramZero := fun (t : State) => ∀ m b v i, b < 0x82 ∨ b = 0x83 → v < bankVectors b → i < 32 → rdSym (t.mem m) (symAddr b v i) = 0
    (∀ src, src < 5 → qualifies (.wakeQualified t0 src) src p)
    ∧ (∀ t1 d, p.timer = some (t1, d) →
        (t1 + d ≤ now → qualifies (.aonTimerExpiry t0) 5 { p with timer := none })
        ∧ (now < t1 + d → exec (.aonTimerExpiry t0) s = .next s0))
    ∧ (∀ f, p.fell = some f → p.faulted = true →
        (f + ms 100 ≤ now → qualifies (.vcoreGoodWake t0) 6 { p with faulted := false, fell := none })
        ∧ (now < f + ms 100 → exec (.vcoreGoodWake t0) s = .next s0))
    ∧ (∀ leave at0, p.request = some (leave, at0) → p.seq = 0 →
        (now < at0 + ms 1 → exec (.powerDownStart t0) s = .next s0)
        ∧ (at0 + ms 1 ≤ now → (∃ m, (s.realm m).mode ≠ .dormant) →
            exec (.powerDownStart t0) s = .next (power { p with request := none }))
        ∧ (at0 + ms 1 ≤ now → (∀ m, (s.realm m).mode = .dormant) → leave + 1 < p.en →
            Answers (.powerDownStart t0) s (unstarted (s0.modHub (fun h => { h with ready := false, power := down p leave })))))
    ∧ (p.seq = 2 → p.leave < p.en →
        (now < p.stepAt + ms 1 → exec (.powerDownStep t0) s = .next s0)
        ∧ (p.stepAt + ms 1 ≤ now → p.leave + 1 < p.en → exec (.powerDownStep t0) s = .next (power { p with
            en := p.en - 1, stepAt := now, good := p.good.filter (fun r => decide (railOutput r < p.en - 1)) }))
        ∧ (p.stepAt + ms 1 ≤ now → p.en = p.leave + 1 → Answers (.powerDownStep t0) s (fun t =>
            t.pending = s.pending ∧ (∀ m, t.realm m = s.realm m)
              ∧ t.hub.power.en = (if p.wakes ≠ 0 ∧ p.leave = 0 then 1 else p.leave) ∧ t.hub.mode = (if p.leave = 2 then .quiet else .deepStandby)
              ∧ (t.hub.mode ≠ s.hub.mode → t.hub.ipend.getLsbD 25 = true)
              ∧ (p.leave ≠ 2 → t.mems = s.mems)
              ∧ (p.leave = 2 → ∀ m v i, i < 32 →
                  (∀ k, k < 16 → v < 8192 → rdSym (t.mem m) (symAddr k v i) = 0)
                  ∧ (v < 32768 → rdSym (t.mem m) (symAddr 0x80 v i) = 0 ∧ rdSym (t.mem m) (symAddr 0x81 v i) = 0)
                  ∧ (∀ b, 0x20 ≤ b → b < 0x40 → v < 8192 → rdSym (t.mem m) (symAddr b v i) = rdSym (s.mem m) (symAddr b v i)))
              ∧ (p.wakes = 0 → t.hub.power.seq = 0 ∧ (t.hub.mode ≠ s.hub.mode → t.hub.power.timer.isSome = true
                  ∨ (s.hget o03_AON_TIMER).toNat = 0 ∧ t.hub.power.timer = none))
              ∧ (p.wakes ≠ 0 → t.hub.power.seq = 1 ∧ t.hget o03_WAKE_CAUSE = (p.wakes : Nat)))))
    ∧ (∀ rail, p.en ≤ railOutput rail ∨ rail ∈ p.good → exec (.railGood t0 rail) s = .next s0)
    ∧ (∀ rail, railOutput rail < p.en → rail ∉ p.good →
        let g := { p with good := rail :: p.good }
        (¬(p.seq = 1 ∧ railsGood g p.en = true) → exec (.railGood t0 rail) s = .next (power g))
        ∧ (p.seq = 1 → railsGood g p.en = true → p.en ≠ 4 →
            exec (.railGood t0 rail) s = .next (power { g with stepAt := now }))
        ∧ (p.seq = 1 → railsGood g p.en = true → p.en = 4 → Answers (.railGood t0 rail) s (fun t =>
            t.pending = s.pending ∧ t.hub.mode = .hub ∧ t.hub.power = { g with stepAt := now, seq := 0 } ∧ t.hub.ready = false
              ∧ t.hub.vout = 800 ∧ (∀ n, (boxOf t.hub n).state = 0) ∧ (s.hub.mode ≠ .hub → t.hub.ipend.getLsbD 25 = true)
              ∧ (s.hub.mode = .quiet → t.mems = s.mems ∧ ∀ m, (t.realm m).mode = (s.realm m).mode
                  ∧ (t.realm m).parked = (s.realm m).parked ∧ ObjsBut m [o12_VCORE_MERGED] s t)
              ∧ (s.hub.mode ≠ .quiet → wiped t ∧ ramZero t))))
    ∧ (p.seq = 1 → 0 < p.en → p.en < 4 → railsGood p p.en = true →
        (p.stepAt + us 100 ≤ now → exec (.powerUpStep t0) s = .next (power { p with en := p.en + 1, stepAt := now }))
        ∧ (now < p.stepAt + us 100 → exec (.powerUpStep t0) s = .next s0))
    ∧ (railsGood p p.en = false → exec (.powerUpStep t0) s = .next s0)
    ∧ (∀ rail, p.seq = 1 → railOutput rail + 1 = p.en → rail ∉ p.good →
        (now < p.stepAt + ms 10 → exec (.railTimeout t0 rail) s = .next s0)
        ∧ (p.stepAt + ms 10 ≤ now → 1 < p.en →
            Answers (.railTimeout t0 rail) s (unstarted (s0.modHub (fun h => { h with ready := false, power := down p 0 }))))
        ∧ (p.stepAt + ms 10 ≤ now → p.en = 1 → p.wakes = 0 → Answers (.railTimeout t0 rail) s (fun t =>
            t.mems = s.mems ∧ (∀ m, t.realm m = { s.realm m with memory := { (s.realm m).memory with startWaits := false } })
              ∧ t.hub.mode = .deepStandby ∧ t.hub.power.seq = 0
              ∧ t.hub.power.en = 0 ∧ t.hub.ready = false)))
    ∧ (∀ rail, s.hub.mode = .hub → p.seq = 0 →
        (rail ∉ p.good → exec (.supplyFault t0 rail) s = .next s0)
        ∧ (rail ∈ p.good → 1 < p.en → Answers (.supplyFault t0 rail) s (fun t =>
            t.pending = s.pending ∧ wiped t ∧ t.hub.ready = false ∧ t.hub.mode = .hub
              ∧ t.hub.power = down { p with faulted := true, fell := none, good := p.good.filter (· != rail) } 0)))
    ∧ Answers (.powerOnReset ⟨t0, xo, sdref⟩) s (fun t =>
        t.pending = s.pending ∧ (∀ m, (t.realm m).xo = xo.getLsbD m.val ∧ (t.realm m).sdref = sdref.getLsbD m.val) ∧ wiped t ∧ ramZero t ∧ t.hub.mode = .deepStandby ∧ t.hub.power = { Power.reset with stepAt := now }
          ∧ t.hub.ready = false ∧ t.hub.fuse = { s.hub.fuse with burn := none } ∧ t.hub.imask = BitVec.allOnes 32)
    ∧ Answers (.vaonRemoved t0) s (fun t =>
        t.pending = s.pending ∧ wiped t ∧ t.hub.mode = .off ∧ t.hub.power.vaon = false ∧ t.hub.power.en = 0 ∧ t.hub.power.good = []
          ∧ t.hub.power.seq = 0 ∧ t.hub.ready = false ∧ t.hub.fuse = { s.hub.fuse with burn := none })
    ∧ (∀ b, (s.hub.fuse.burn.isSome = true → exec (.fuseBurnComplete t0 b) s =
          .next (s0.modHub (fun h => { h with fuse := ⟨leBytes (b.take 32), true, none⟩ })))
        ∧ (s.hub.fuse.burn = none → exec (.fuseBurnComplete t0 b) s = .next s0))
    ∧ (∀ code, let t := s0.modHub (fun h => { h with tap := if code < 5 then code else 2 })
        exec (.jtagInstruction t0 code) s = .next t
          ∧ ((∀ m, (s.realm m).mode = .dormant) → tapDecoded t = if code < 5 then code else 2)
          ∧ ((∃ m, (s.realm m).mode ≠ .dormant) → tapDecoded t = if code = 1 then 1 else 2))

/-! ## Modes and pairs (16, 17) -/

/-- An accepted transition takes effect at the frame boundary: the mode, the role, SAFE_CAUSE and the fade that the mode table gives.
A stop ends after its fade once every port is DISABLED: the realm is parked in DORMANT and its Keeper halts.
Clauses that rest on the model's choices: log entries 32, 49, 50, 74. -/
def Obligations.ModeChanges : Prop :=
  ∀ (e : Ev) (s : State),
    let m := e.m
    let s0 := s.at e.t
    let now := s0.now
    let r := s.realm m
    let c := Instr.realmModeChange e
    let keys := [o10_MODE, o10_MODE_SINCE, o12_FIXED_REQUEST, o30_PAIR_ROLE, o30_PAIR_MODE, o1A_SAFE_CAUSE] ++ readyKeys
    (r.trans = none → exec c s = .next s0)
    ∧ (∀ x, r.trans = some x →
      let begun : Option Trans := some { x with begun := true, since := now }
      let fadesOut := if r.out.mode.closed then r.out else { r.out with mode := Gate.fading true now }
      let fadesIn := if r.out.mode.closed then { r.out with mode := Gate.fading false now } else r.out
      let same := fun (k : Nat) (t : State) => t.oget m k = s.oget m k
      let becomes := fun (r' : Realm) (P : State → Prop) => Answers c s (fun t => Becomes m keys r' s t
        ∧ (if r.mode = .maintenance ∧ r'.mode ≠ .maintenance then t.onat m o12_FIXED_REQUEST = 0 else same o12_FIXED_REQUEST t) ∧ P t)
      let role := fun (v : Nat) (t : State) => t.onat m o30_PAIR_ROLE = v
      let pairKept := fun (t : State) => same o30_PAIR_ROLE t ∧ same o30_PAIR_MODE t
      (x.begun = true ∨ (x.stop = false ∧ r.mode = .takeover) → Answers c s (Becomes m readyKeys r s))
      ∧ (x.begun = false → x.stop = true → becomes { r with trans := begun, out := fadesOut }
          (fun t => pairKept t ∧ same o10_MODE t ∧ same o1A_SAFE_CAUSE t))
      ∧ (x.begun = false → x.stop = false → r.mode ≠ .takeover →
        (x.target = .safe → becomes
            { r with mode := .safe, safeFrom := r.mode, safeDue := none, trans := begun,
                     out := { r.out with safe := Gate.fading true now } }
            (fun t => pairKept t ∧ t.onat m o1A_SAFE_CAUSE = r.safeDue.getD 1))
        ∧ (r.mode = .safe → x.target = .run ∨ x.target = .active ∨ x.target = .standby → becomes
            { r with mode := x.target, trans := begun, out := { r.out with safe := Gate.fading false now } }
            (fun t => t.onat m o1A_SAFE_CAUSE = 0 ∧ (x.target = .standby → role 2 t) ∧ (x.target ≠ .standby → pairKept t)))
        ∧ (x.target = .maintenance → r.mode ≠ .safe → becomes { r with mode := .maintenance, trans := begun, out := fadesOut } pairKept)
        ∧ (r.safeDue = none → x.target = .maintenance → r.mode = .safe → becomes
            { r with mode := .maintenance, trans := none, out := { r.out with mode := Gate.shut, safe := Gate.open } }
            (fun t => role 0 t ∧ t.onat m o1A_SAFE_CAUSE = 0))
        ∧ (x.target = .run → r.mode ≠ .safe → r.mode ≠ .active → r.mode ≠ .standby →
            becomes { r with mode := .run, trans := begun, out := fadesIn } pairKept)
        ∧ (r.safeDue = none → x.target = .run → r.mode = .active → becomes { r with mode := .run, trans := none }
            (fun t => role 0 t ∧ t.onat m o30_PAIR_MODE = 0))
        ∧ (x.target = .run → r.mode = .standby → becomes
            { r with mode := .run, trans := begun, out := { r.out with mode := Gate.fading false now } }
            (fun t => role 0 t ∧ t.onat m o30_PAIR_MODE = 0))
        ∧ (let p := { r.pair with activeAt := now, takeReq := none, release := none }
           (r.safeDue = none → x.target = .active → r.mode = .run →
              becomes { r with mode := .active, trans := none, pair := p } (role 1))
           ∧ (x.target = .active → r.mode ≠ .run → r.mode ≠ .safe →
              becomes { r with mode := .active, trans := begun, pair := p, out := fadesIn } (role 1)))
        ∧ (x.target = .standby → r.mode = .run → becomes { r with mode := .standby, trans := begun, out := fadesOut } (role 2))
        ∧ (r.safeDue = none → x.target = .standby → r.mode ≠ .run → r.mode ≠ .safe →
            becomes { r with mode := .standby, trans := none, out := { r.out with mode := Gate.open } } (role 2))
        ∧ (r.safeDue = none → x.target = .bringUp → Answers c s (fun t =>
            (t.realm m).mode = .bringUp ∧ (t.realm m).trans = none ∧ (r.mode = .maintenance → t.onat m o12_FIXED_REQUEST = 0)
              ∧ t.onat m o12_VCORE_REQUEST = 800 ∧ (t.realm m).gov.swept = false ∧ (t.realm m).gov.sweepDue = none
              ∧ tget 0 (t.realm m).bus.resetting 4 = now + 1 ∧ (t.realm m).bringUpTb = s0.tbNs m
              ∧ ∀ j, j ≠ m → t.realm j = { s.realm j with objs := (t.realm j).objs } ∧ ObjsBut j [o12_VCORE_MERGED] s t
                ∧ t.mem j = s.mem j))))
    ∧ (∀ x, r.trans = some x →
      let due : Prop := x.stop = true ∧ x.begun = true ∧ x.since + ms 2 ≤ now ∧ ∀ p, p < 16 → portState s m p = 0
      (¬due → exec (.realmStopComplete e) s = .next s0)
      ∧ (due → Answers (.realmStopComplete e) s (fun t =>
          let r' := t.realm m
          r'.mode = .dormant ∧ r'.parked = true ∧ r'.trans = none ∧ r'.safeDue = none ∧ r'.tiles = [] ∧ r'.frame.running = false
            ∧ r'.frame.ticked = false ∧ r'.bus.keeper = false ∧ r'.bus.waiting = [] ∧ t.onat m o30_PAIR_ROLE = 0
            ∧ r'.ready = 0 ∧ (s.hub.ready = true → t.hub.mirror.get m = 0)
            ∧ (r.mode = .maintenance → t.onat m o12_FIXED_REQUEST = 0)
            ∧ (HubQuiet s → s.hub.posted = [] →
                (∀ j, j ≠ m → t.realm j = { s.realm j with objs := (t.realm j).objs } ∧ ObjsBut j [o12_VCORE_MERGED] s t)
                ∧ (r.frame.armed = none → loadState s m ≠ 1 → loadState s m ≠ 2 → t.mems = s.mems)))))

/-- A paired realm sends a beacon for each window; the partner's beacon is recorded, and an active realm gives way to a take or to a
partner that became active later. The loss of the partner is reported once. TAKE, by a command or an edge of 1 µs, leads to
TAKEOVER at the next frame and to ACTIVE in the one after it. The referee repeats its TAKE every 1 ms, five times.
Clauses that rest on the model's choices: log entries 2, 51, 52, 53. -/
def Obligations.PairsTakeOver : Prop :=
  ∀ (e : Ev) (s : State),
    let m := e.m
    let s0 := s.at e.t
    let now := s0.now
    let r := s.realm m
    let p := r.pair
    let n := s.frameNo m
    let d := windowLen s m
    let key := if slotRole s m 7 ≠ 0 then some (slotKey s m 7) else none
    let sentOn := fun (b : Beacon) (t : State) => ∀ k, k < 2 → (t.nport m k).sent =
      if s.onat m o30_BEACON_GROUP ≠ 0 ∧ linkOpen s m k = true then
        [macOut s0 m <| udpOut s m k (s.onat m o30_BEACON_GROUP) (s.onat m o28_BILUNO_PORT) (s.onat m o28_BILUNO_PORT) 64 0
          (message 5 0 ((p.seq + 1) % 4294967296) [⟨0x84, 0, oidOf m o30_HEALTH, beaconBody b⟩] key)]
      else []
    (let w := n / d
     let b : Beacon := ⟨s.onat m o30_PAIR_ROLE, modeCode r.mode, healthWord s0 m, (w - 1) * d, d, s.onat m o14_RUNNING_EPOCH,
        ((p.own.find? (fun o => o.1 == (w - 1) * d)).map (·.2.2)).getD 0, p.takeFrame, p.forwards, s.onat m o14_RUNNING_IMAGE_ID⟩
     (sendsBeacons s m = true → p.sentWin < w → Answers (.beaconSend e) s (fun t =>
        OnlyRealm m s t ∧ t.mems = s.mems ∧ sentOn b t
          ∧ t.realm m = { r with pair := { p with seq := p.seq + 1, sentWin := w },
                                 net := { r.net with ports := (t.realm m).net.ports } }))
     ∧ (sendsBeacons s m = false ∨ w ≤ p.sentWin → exec (.beaconSend e) s = .next s0))
    ∧ (∀ src bytes,
      let c := Instr.beaconReceived e src bytes
      let q := (if holdsUdp s0 m 0 bytes then takeUdp s0 m 0 bytes else takeUdp s0 m 1 bytes).bump m o28_RX_MESSAGES 1
      let b := beaconOf (slice bytes 24 48)
      let fresh : Prop := r.bus.keeper = true ∧ src ≠ 0 ∧ beaconValid s m bytes = true ∧ tget 0 p.last src ≤ b.frame
      let mine : Prop := paired s m = true ∧ src = s.onat m o30_PARTNER_ADDRESS ∧ s.onat m o30_REFEREE_ENABLE ≠ 1
      (r.bus.keeper = false → exec c s = .next s0)
      ∧ (r.bus.keeper = true → watched s m src = false ∨ beaconValid s m bytes = false ∨ b.frame < tget 0 p.last src →
          exec c s = .next q)
      ∧ (fresh → mine → Answers c s (fun t =>
          let p' := (t.realm m).pair
          RealmAlone m s t ∧ t.mems = s.mems ∧ t.onat m o30_PARTNER_HEALTH = b.health ∧ t.onat m o30_PARTNER_FRAME = b.frame
            ∧ p'.heard = some (now, b) ∧ p'.lost = false ∧ tget 0 p'.last src = b.frame + 1
            ∧ (r.mode ≠ .active → (t.realm m).mode = r.mode ∧ p'.release = p.release)
            ∧ (r.mode = .active → b.role = 3 → b.take ≤ n → (t.realm m).mode = .standby ∧ t.onat m o30_PAIR_ROLE = 2)
            ∧ (r.mode = .active → b.role = 3 → n < b.take → (t.realm m).mode = .active ∧ p'.release = some b.take)
            ∧ (r.mode = .active → b.role = 1 →
                p.takeFrame < b.take ∨ (b.take = p.takeFrame ∧ senderMac s m src < macAddr s m 0) →
                (t.realm m).mode = .active ∧ p'.release = some (n + 1))
            ∧ (r.mode = .active → b.role ≠ 1 → b.role ≠ 3 → (t.realm m).mode = .active ∧ p'.release = p.release)))
      ∧ (fresh → paired s m = false → s.onat m o30_REFEREE_ENABLE = 1 → src = s.onat m o30_REFEREE_STANDBY →
          src ≠ s.onat m o30_REFEREE_ACTIVE →
          (∀ v, p.refTake = some v → b.role = 1 → Answers c s (fun t =>
            t.onat m o30_REFEREE_ENABLE = 0 ∧ (t.realm m).pair.refTake = none ∧ (t.realm m).bil.sent = r.bil.sent))
          ∧ (∀ ta a rest, p.refTake = none → p.refA = (ta, a) :: rest → a.role ≠ 0 → ta + ms (s.onat m o30_BEACON_TIMEOUT) < now →
            b.health &&& 0x3FD = 0 → Answers c s (fun t =>
              (t.realm m).pair.refTake = some (0, now)
                ∧ (t.realm m).bil.sent = r.bil.sent ++ [(s.onat m o30_REFEREE_STANDBY, opBytes ⟨6, 0, o30_TAKE, []⟩)]))))
    ∧ (let due : Prop := paired s m = true ∧ p.lost = false ∧ p.since + ms (s.onat m o30_BEACON_TIMEOUT) ≤ now
       let late := fun (x : Nat × Time) => decide (x.2 + ms (s.onat m o30_BEACON_TIMEOUT) < now)
       (due → Answers (.partnerLost e) s (fun t =>
          Becomes m (o30_BEACONS_MISSED :: eventKeys) { r with pair := { p with lost := true, due := p.due.filter (fun x => !late x) } } s t
            ∧ Counted m o30_BEACONS_MISSED (p.due.filter late).length s t ∧ Raised m 0x3001 o30_BEACONS_MISSED s t
            ∧ (t.realm m).bus.pend.getLsbD 6 = true))
       ∧ (¬due → exec (.partnerLost e) s = .next s0))
    ∧ (∀ width,
      let c := Instr.pairTakeEdge e width
      let acts := fun (s1 t : State) =>
        (r.mode = .standby → imageReady s m = true → t = (s1.irq m 5).modRealm m (fun r =>
            { r with pair := { r.pair with takeReq := some (p.takeReq.getD n) } }))
        ∧ (r.mode = .standby → imageReady s m = false → Becomes m eventKeys r s1 t ∧ Raised m 0x3004 o30_PAIR_ROLE s1 t
            ∧ (t.realm m).bus.pend.getLsbD 5 = true)
        ∧ (r.mode = .active → p.activeAt + ms 100 ≤ now → t = (s1.irq m 5).modRealm m (fun r =>
            { r with pair := { r.pair with release := some (n + 2) } }))
        ∧ (r.mode ≠ .standby → r.mode ≠ .active ∨ now < p.activeAt + ms 100 → t = s1.irq m 5)
      (width < ns 200 → exec c s = .next s0)
      ∧ (ns 200 ≤ width → r.mode = .dormant → Answers c s (fun t => t = { s0 with free := t.free }))
      ∧ (devicePartner s m = none → r.mode ≠ .dormant →
        (us 1 ≤ width → Answers c s (acts s0))
        ∧ (ns 200 ≤ width → width < us 1 → Answers c s (fun t =>
            t = { s0 with free := t.free } ∨ acts { s0 with free := t.free } t)))
      ∧ (∀ k, devicePartner s m = some k → r.mode ≠ .dormant → us 1 ≤ width → exec c s = .next (takeEdge (takeEdge s0 m) k)))
    ∧ (p.takeReq = none → exec (.takeoverBegin e) s = .next s0 ∧ exec (.takeoverDone e) s = .next s0)
    ∧ (∀ a, p.takeReq = some a →
      (r.mode ≠ .standby ∨ n < a + 1 → exec (.takeoverBegin e) s = .next s0)
      ∧ (r.mode = .standby → a + 1 ≤ n → devicePartner s m = none → Answers (.takeoverBegin e) s (fun t =>
          let b : Beacon := ⟨3, 5, healthWord t m, n / d * d, d, s.onat m o14_RUNNING_EPOCH, 0, a + 2,
            p.forwards, s.onat m o14_RUNNING_IMAGE_ID⟩
          Becomes m ([o10_MODE, o10_MODE_SINCE] ++ eventKeys)
              { r with mode := .takeover, pair := { p with seq := p.seq + 1 }, net := { r.net with ports := (t.realm m).net.ports } } s t
            ∧ sentOn b t))
      ∧ (r.mode ≠ .takeover ∨ n < a + 2 → exec (.takeoverDone e) s = .next s0)
      ∧ (r.mode = .takeover → a + 2 ≤ n →
        let y := { r with
          mode := .active, trans := r.trans.filter (·.stop), out := { r.out with mode := Gate.open },
          pair := { p with activeAt := now, takeReq := none, release := none, takeFrame := a + 2 } }
        let keys := [o10_MODE, o10_MODE_SINCE, o30_PAIR_ROLE, o30_TAKEOVERS, o1A_SAFE_CAUSE] ++ eventKeys
        (r.safeDue = none ∨ y.trans ≠ none → Answers (.takeoverDone e) s (fun t =>
          Becomes m keys y s t ∧ t.onat m o30_PAIR_ROLE = 1 ∧ Counted m o30_TAKEOVERS 1 s t
            ∧ ∃ u : State, t = u.raise m 0x3003 o30_PAIR_ROLE))
        ∧ (∀ v, r.safeDue = some v → y.trans = none → Answers (.takeoverDone e) s (fun t =>
          Becomes m keys { y with mode := .safe, safeFrom := .active, safeDue := none, trans := some ⟨.safe, false, true, now⟩,
                                  out := { y.out with safe := Gate.fading true now } } s t
            ∧ t.onat m o30_PAIR_ROLE = 1 ∧ Counted m o30_TAKEOVERS 1 s t ∧ t.onat m o1A_SAFE_CAUSE = v))))
    ∧ (∀ a t1, p.refTake = some (a, t1) →
      let due : Prop := s.onat m o30_REFEREE_ENABLE = 1 ∧ t1 + ms 1 ≤ now
      (due → a < 5 → exec (.refereeTakeRepeat e) s = .next (s0.modRealm m (fun r =>
          { r with pair := { r.pair with refTake := some (a + 1, now) },
                   bil := { r.bil with
                     sent := r.bil.sent ++ [(s.onat m o30_REFEREE_STANDBY, opBytes ⟨6, 0, o30_TAKE, []⟩)] } })))
      ∧ (due → 5 ≤ a → exec (.refereeTakeRepeat e) s = .next (s0.modRealm m (fun r =>
          { r with pair := { r.pair with refTake := none } })))
      ∧ (¬due → exec (.refereeTakeRepeat e) s = .next s0))

/-! ## Stops -/

/-- Every command answers a next state but a bus transaction that meets a register of the Keeper's firmware, whose effects the spec
does not give: that is refused under its address (14 Table 14-2).
Clauses that rest on the model's choices: log entry 30. -/
def Obligations.OnlyFirmwareRegistersStop : Prop :=
  ∀ (c : Instr) (s : State), (∃ t, exec c s = .next t) ∨
    ∃ (e : Ev) (k addr a : Nat) (op : BusOp), exec c s = .refused (.firmwareRegister a)
      ∧ privAt (s.at e.t) e.m k addr op = some a ∧ 0x80020000 ≤ a ∧ a < 0x81000000
      ∧ ((∃ n, c = .busRead e k addr n) ∨ (∃ v, c = .busWrite e k addr v) ∨ (∃ d be, c = .narrowWrite e k addr d be)
        ∨ (∃ o v, k ≠ 6 ∧ c = .registerWrite e k o v))
end

