-- ==== Sys2Proof/Laws/Tbl.lean ====
section
/-!
SUPPORT. The laws of tables: read after write, frames, and that every write keeps the canonical form.
-/
namespace Sys2Proof.Machine
variable {α : Type}

@[simp] theorem tget_nil (d : α) (k : Nat) : tget d [] k = d := rfl

theorem tget_tdel_same (d : α) (m : Tbl α) (k : Nat) : tget d (tdel m k) k = d := by
  induction m with
  | nil => rfl
  | cons c r ih =>
    by_cases h : c.1 = k
    · simpa [tdel, h] using ih
    · simpa [tdel, h, tget] using ih

theorem tget_tdel_ne (d : α) (m : Tbl α) {k j : Nat} (hj : j ≠ k) :
    tget d (tdel m k) j = tget d m j := by
  induction m with
  | nil => rfl
  | cons c r ih =>
    obtain ⟨i, w⟩ := c
    by_cases h : i = k
    · subst h
      have hij : i ≠ j := fun e => hj e.symm
      simpa [tdel, tget, hij] using ih
    · have ih' : tget d (List.filter (fun c => decide (c.1 ≠ k)) r) j = tget d r j := ih
      have hf : tdel ((i, w) :: r) k = (i, w) :: tdel r k := by simp [tdel, h]
      rw [hf]
      simp only [tget]
      split
      · rfl
      · exact ih

theorem tget_tclear_out (d : α) (m : Tbl α) {lo hi j : Nat} (hj : j < lo ∨ hi ≤ j) :
    tget d (tclear m lo hi) j = tget d m j := by
  induction m with
  | nil => rfl
  | cons c r ih =>
    obtain ⟨i, w⟩ := c
    by_cases h : i < lo ∨ hi ≤ i
    · have hf : tclear ((i, w) :: r) lo hi = (i, w) :: tclear r lo hi := by simp [tclear, h]
      rw [hf]; simp only [tget, ih]
    · have hf : tclear ((i, w) :: r) lo hi = tclear r lo hi := by simp [tclear, h]
      have hij : i ≠ j := fun e => h (e ▸ hj)
      rw [hf, ih]; simp [tget, hij]

theorem tget_tclear_in (d : α) (m : Tbl α) {lo hi j : Nat} (h1 : lo ≤ j) (h2 : j < hi) :
    tget d (tclear m lo hi) j = d := by
  induction m with
  | nil => rfl
  | cons c r ih =>
    obtain ⟨i, w⟩ := c
    by_cases h : i < lo ∨ hi ≤ i
    · have hf : tclear ((i, w) :: r) lo hi = (i, w) :: tclear r lo hi := by simp [tclear, h]
      have hij : i ≠ j := by omega
      rw [hf]; simp [tget, hij, ih]
    · have hf : tclear ((i, w) :: r) lo hi = tclear r lo hi := by simp [tclear, h]
      rw [hf, ih]

/-- Inserting a key that is not listed: the key reads the value, every other key as before. -/
theorem tget_tins (d : α) (m : Tbl α) (k : Nat) (v : α) (hk : ∀ c ∈ m, c.1 ≠ k) (j : Nat) :
    tget d (tins m k v) j = if k = j then v else tget d m j := by
  induction m with
  | nil => simp [tins, tget]
  | cons c r ih =>
    obtain ⟨i, w⟩ := c
    have hi : i ≠ k := hk (i, w) (by simp)
    have hr : ∀ c ∈ r, c.1 ≠ k := fun c hc => hk c (by simp [hc])
    simp only [tins]
    split
    · simp [tget]
    · simp only [tget, ih hr]
      by_cases h1 : i = j
      · subst h1; simp [Ne.symm hi]
      · simp [h1]

theorem tdel_not_mem (m : Tbl α) (k : Nat) : ∀ c ∈ tdel m k, c.1 ≠ k := by
  intro c hc
  have := (List.mem_filter.1 hc).2
  simpa using this

variable [DecidableEq α]

/-- Read after write, any key. -/
theorem tget_tput (d : α) (m : Tbl α) (k : Nat) (v : α) (j : Nat) :
    tget d (tput d m k v) j = if k = j then v else tget d m j := by
  unfold tput
  split
  · next h =>
    subst h
    by_cases hj : k = j
    · subst hj; simp [tget_tdel_same]
    · simp [hj, tget_tdel_ne _ _ (Ne.symm hj)]
  · rw [tget_tins _ _ _ _ (tdel_not_mem m k)]
    split
    · rfl
    · next h => exact tget_tdel_ne _ _ (Ne.symm h)

/-- Another key reads as before, whatever default it is read with. -/
theorem tget_tput_other (d e : α) (m : Tbl α) {k j : Nat} (v : α) (h : j ≠ k) :
    tget e (tput d m k v) j = tget e m j := by
  unfold tput
  split
  · exact tget_tdel_ne e m h
  · rw [tget_tins _ _ _ _ (tdel_not_mem m k), tget_tdel_ne e m h]; simp [Ne.symm h]

@[simp] theorem tget_tput_same (d : α) (m : Tbl α) (k : Nat) (v : α) :
    tget d (tput d m k v) k = v := by simp [tget_tput]

theorem tget_tput_ne (d : α) (m : Tbl α) {k j : Nat} (v : α) (h : j ≠ k) :
    tget d (tput d m k v) j = tget d m j := by simp [tget_tput, Ne.symm h]

omit [DecidableEq α] in
theorem tsorted_iff (m : Tbl α) : tsorted m = true ↔ m.Pairwise (fun a b => a.1 < b.1) := by
  induction m with
  | nil => simp [tsorted]
  | cons a r ih =>
    cases r with
    | nil => simp [tsorted]
    | cons b r =>
      simp only [tsorted, Bool.and_eq_true, decide_eq_true_eq, ih, List.pairwise_cons]
      constructor
      · rintro ⟨hab, hb, hr⟩
        refine ⟨?_, hb, hr⟩
        intro c hc
        rcases List.mem_cons.1 hc with rfl | hc
        · exact hab
        · exact Nat.lt_trans hab (hb c hc)
      · rintro ⟨ha, hb, hr⟩
        exact ⟨ha b (by simp), hb, hr⟩

omit [DecidableEq α] in
theorem tins_mem (m : Tbl α) (k : Nat) (v : α) (c : Nat × α) :
    c ∈ tins m k v ↔ c = (k, v) ∨ c ∈ m := by
  induction m with
  | nil => simp [tins]
  | cons a r ih =>
    obtain ⟨i, w⟩ := a
    simp only [tins]
    split
    · simp
    · simp only [List.mem_cons, ih]; exact or_left_comm

omit [DecidableEq α] in
theorem tins_sorted (m : Tbl α) (k : Nat) (v : α) (hm : m.Pairwise (fun a b => a.1 < b.1))
    (hk : ∀ c ∈ m, c.1 ≠ k) : (tins m k v).Pairwise (fun a b => a.1 < b.1) := by
  induction m with
  | nil => simp [tins]
  | cons a r ih =>
    obtain ⟨i, w⟩ := a
    have hi : i ≠ k := hk (i, w) (by simp)
    rw [List.pairwise_cons] at hm
    simp only [tins]
    split
    · next h =>
      rw [List.pairwise_cons]
      refine ⟨?_, List.pairwise_cons.2 hm⟩
      intro c hc
      rcases List.mem_cons.1 hc with rfl | hc
      · exact h
      · exact Nat.lt_trans h (hm.1 c hc)
    · next h =>
      rw [List.pairwise_cons]
      refine ⟨?_, ih hm.2 (fun c hc => hk c (by simp [hc]))⟩
      intro c hc
      rcases (tins_mem r k v c).1 hc with rfl | hc
      · show i < k; omega
      · exact hm.1 c hc

theorem twf_iff (d : α) (m : Tbl α) :
    twf d m = true ↔ m.Pairwise (fun a b => a.1 < b.1) ∧ ∀ c ∈ m, c.2 ≠ d := by
  simp [twf, tsorted_iff]

theorem twf_nil (d : α) : twf d ([] : Tbl α) = true := by simp [twf, tsorted]

theorem twf_filter (d : α) (m : Tbl α) (p : Nat × α → Bool) (h : twf d m = true) :
    twf d (m.filter p) = true := by
  rw [twf_iff] at h ⊢
  exact ⟨h.1.filter p, fun c hc => h.2 c (List.mem_filter.1 hc).1⟩

theorem twf_tdel (d : α) (m : Tbl α) (k : Nat) (h : twf d m = true) : twf d (tdel m k) = true :=
  twf_filter d m _ h

theorem twf_tclear (d : α) (m : Tbl α) (lo hi : Nat) (h : twf d m = true) :
    twf d (tclear m lo hi) = true := twf_filter d m _ h

/-- A write keeps the canonical form. -/
theorem twf_tput (d : α) (m : Tbl α) (k : Nat) (v : α) (h : twf d m = true) :
    twf d (tput d m k v) = true := by
  unfold tput
  split
  · exact twf_tdel d m k h
  · next hv =>
    have h' := (twf_iff d _).1 (twf_tdel d m k h)
    rw [twf_iff]
    refine ⟨tins_sorted _ _ _ h'.1 (tdel_not_mem m k), ?_⟩
    intro c hc
    rcases (tins_mem _ k v c).1 hc with rfl | hc
    · exact hv
    · exact h'.2 c hc

end Sys2Proof.Machine
end

