-- ==== Sys2Proof/Laws/State.lean ====
section
/-!
SUPPORT. What each field of the state reads after each update of Ops.lean: one lemma per field and update, so that no
proof unfolds a record update.
-/
namespace Sys2Proof.Machine

section Realm
variable (s : State) (m j : RealmId) (f : Realm → Realm)

@[simp] theorem modRealm_now : (s.modRealm m f).now = s.now := rfl
@[simp] theorem modRealm_free : (s.modRealm m f).free = s.free := rfl
@[simp] theorem modRealm_hub : (s.modRealm m f).hub = s.hub := rfl
@[simp] theorem modRealm_mems : (s.modRealm m f).mems = s.mems := rfl
@[simp] theorem modRealm_mem : (s.modRealm m f).mem j = s.mem j := rfl
@[simp] theorem modRealm_pending : (s.modRealm m f).pending = s.pending := rfl
@[simp] theorem modRealm_same : (s.modRealm m f).realm m = f (s.realm m) := by
  simp [State.modRealm, State.setRealm, State.realm]
theorem modRealm_ne (h : m ≠ j) : (s.modRealm m f).realm j = s.realm j := by
  simp [State.modRealm, State.setRealm, State.realm, Quad.get_set_ne _ _ h]
/-- The realm read after an update of a realm. -/
theorem modRealm_realm : (s.modRealm m f).realm j = if m = j then f (s.realm j) else s.realm j := by
  split
  · next h => subst h; simp
  · next h => exact modRealm_ne s m j f h

end Realm

section Memory
variable (s : State) (m j : RealmId) (c : List Host.Cell)

@[simp] theorem setMem_now : (s.setMem m c).now = s.now := rfl
@[simp] theorem setMem_free : (s.setMem m c).free = s.free := rfl
@[simp] theorem setMem_hub : (s.setMem m c).hub = s.hub := rfl
@[simp] theorem setMem_realms : (s.setMem m c).realms = s.realms := rfl
@[simp] theorem setMem_realm : (s.setMem m c).realm j = s.realm j := rfl
@[simp] theorem setMem_pending : (s.setMem m c).pending = s.pending := rfl
@[simp] theorem setMem_same : (s.setMem m c).mem m = c := by simp [State.setMem, State.mem]
theorem setMem_ne (h : m ≠ j) : (s.setMem m c).mem j = s.mem j := by
  simp [State.setMem, State.mem, Quad.get_set_ne _ _ h]

end Memory

section Instant
variable (s : State) (t : Time) (j : RealmId) (k : Nat)

@[simp] theorem at_now : (s.at t).now = if s.now ≤ t then t else s.now := rfl
@[simp] theorem at_free : (s.at t).free = s.free := rfl
@[simp] theorem at_hub : (s.at t).hub = s.hub := rfl
@[simp] theorem at_realms : (s.at t).realms = s.realms := rfl
@[simp] theorem at_realm : (s.at t).realm j = s.realm j := rfl
@[simp] theorem at_mems : (s.at t).mems = s.mems := rfl
@[simp] theorem at_mem : (s.at t).mem j = s.mem j := rfl
@[simp] theorem at_pending : (s.at t).pending = s.pending := rfl
@[simp] theorem at_frame : (s.at t).frame j = s.frame j := rfl
@[simp] theorem at_tile : (s.at t).tile j k = s.tile j k := rfl
@[simp] theorem at_oget : (s.at t).oget j k = s.oget j k := rfl
@[simp] theorem at_onat : (s.at t).onat j k = s.onat j k := rfl
@[simp] theorem at_hget : (s.at t).hget k = s.hget k := rfl
/-- Time never goes back. -/
theorem at_now_le : s.now ≤ (s.at t).now := by
  rw [at_now]; split
  · next h => exact h
  · exact Nat.le_refl _

end Instant

section Draw
variable (s : State) (j : RealmId) (k : Nat)

@[simp] theorem draw_fst : s.draw.1 = Config.freeNat s.free := rfl
@[simp] theorem draw_now : s.draw.2.now = s.now := rfl
@[simp] theorem draw_free : s.draw.2.free = s.free + 1 := rfl
@[simp] theorem draw_hub : s.draw.2.hub = s.hub := rfl
@[simp] theorem draw_realms : s.draw.2.realms = s.realms := rfl
@[simp] theorem draw_realm : s.draw.2.realm j = s.realm j := rfl
@[simp] theorem draw_mems : s.draw.2.mems = s.mems := rfl
@[simp] theorem draw_mem : s.draw.2.mem j = s.mem j := rfl
@[simp] theorem draw_pending : s.draw.2.pending = s.pending := rfl
@[simp] theorem draw_oget : s.draw.2.oget j k = s.oget j k := rfl
@[simp] theorem draw_tile : s.draw.2.tile j k = s.tile j k := rfl

end Draw

section Tiles
variable (s : State) (m : RealmId) (k : Nat) (f : Tile → Tile)

@[simp] theorem modTile_now : (s.modTile m k f).now = s.now := rfl
@[simp] theorem modTile_free : (s.modTile m k f).free = s.free := rfl
@[simp] theorem modTile_hub : (s.modTile m k f).hub = s.hub := rfl
@[simp] theorem modTile_mems : (s.modTile m k f).mems = s.mems := rfl
@[simp] theorem modTile_mem (j : RealmId) : (s.modTile m k f).mem j = s.mem j := rfl
@[simp] theorem modTile_pending : (s.modTile m k f).pending = s.pending := rfl
@[simp] theorem modTile_same : (s.modTile m k f).tile m k = f (s.tile m k) := by
  simp [State.modTile, State.setTile, State.tile]
theorem modTile_ne {j : Nat} (h : j ≠ k) : (s.modTile m k f).tile m j = s.tile m j := by
  simp [State.modTile, State.setTile, State.tile, tget_tput_ne _ _ _ h]
theorem modTile_realm_ne {j : RealmId} (h : m ≠ j) : (s.modTile m k f).realm j = s.realm j :=
  modRealm_ne _ _ _ _ h
/-- Of the realm, an update of a tile changes the tiles alone. -/
theorem modTile_realm : (s.modTile m k f).realm m =
    { s.realm m with tiles := tput Tile.reset (s.realm m).tiles k (f (s.tile m k)) } := by
  simp [State.modTile, State.setTile]
@[simp] theorem modTile_frame (j : RealmId) : (s.modTile m k f).frame j = s.frame j := by
  by_cases h : m = j
  · subst h; simp [State.frame, modTile_realm]
  · simp [State.frame, modTile_realm_ne _ _ _ _ h]
@[simp] theorem modTile_objs (j : RealmId) : ((s.modTile m k f).realm j).objs = (s.realm j).objs := by
  by_cases h : m = j
  · subst h; simp [modTile_realm]
  · simp [modTile_realm_ne _ _ _ _ h]
@[simp] theorem modTile_oget (j : RealmId) (o : Nat) : (s.modTile m k f).oget j o = s.oget j o := by
  simp [State.oget]

end Tiles

section Objects
variable (s : State) (m : RealmId) (k : Nat) (v : Int)

@[simp] theorem oput_now : (s.oput m k v).now = s.now := rfl
@[simp] theorem oput_free : (s.oput m k v).free = s.free := rfl
@[simp] theorem oput_hub : (s.oput m k v).hub = s.hub := rfl
@[simp] theorem oput_mems : (s.oput m k v).mems = s.mems := rfl
@[simp] theorem oput_mem (j : RealmId) : (s.oput m k v).mem j = s.mem j := rfl
@[simp] theorem oput_pending : (s.oput m k v).pending = s.pending := rfl
@[simp] theorem oput_same : (s.oput m k v).oget m k = v := by simp [State.oput, State.oget]
theorem oput_ne {j : Nat} (h : j ≠ k) : (s.oput m k v).oget m j = s.oget m j := by
  simp [State.oput, State.oget, tget_tput_other _ _ _ _ h]
theorem oput_realm_ne {j : RealmId} (h : m ≠ j) : (s.oput m k v).realm j = s.realm j := modRealm_ne _ _ _ _ h
/-- Of the realm, a write of an object changes the objects alone. -/
theorem oput_realm : (s.oput m k v).realm m =
    { s.realm m with objs := tput (realmDflt m k) (s.realm m).objs k v } := by simp [State.oput]
@[simp] theorem oput_tile (j : RealmId) (i : Nat) : (s.oput m k v).tile j i = s.tile j i := by
  by_cases h : m = j
  · subst h; simp [State.tile, oput_realm]
  · simp [State.tile, oput_realm_ne _ _ _ _ h]
@[simp] theorem oput_frame (j : RealmId) : (s.oput m k v).frame j = s.frame j := by
  by_cases h : m = j
  · subst h; simp [State.frame, oput_realm]
  · simp [State.frame, oput_realm_ne _ _ _ _ h]
/-- The object read after a write of an object. -/
theorem oput_oget (j : Nat) : (s.oput m k v).oget m j = if k = j then v else s.oget m j := by
  by_cases h : k = j
  · subst h; simp
  · simp [h, oput_ne s m k v (Ne.symm h)]

end Objects

section Counters
variable (s : State) (m : RealmId) (k n : Nat)

@[simp] theorem bump_now : (s.bump m k n).now = s.now := rfl
@[simp] theorem bump_hub : (s.bump m k n).hub = s.hub := rfl
@[simp] theorem bump_mems : (s.bump m k n).mems = s.mems := rfl
@[simp] theorem bump_pending : (s.bump m k n).pending = s.pending := rfl
@[simp] theorem bump_tile (j : RealmId) (i : Nat) : (s.bump m k n).tile j i = s.tile j i := oput_tile _ _ _ _ _ _
@[simp] theorem bump_frame (j : RealmId) : (s.bump m k n).frame j = s.frame j := oput_frame _ _ _ _ _
/-- A counter stops at 0xFFFF_FFFF (13 R453). -/
@[simp] theorem bump_same : (s.bump m k n).onat m k = Nat.min (s.onat m k + n) 0xFFFFFFFF := by
  show ((s.oput m k _).oget m k).toNat = _
  rw [oput_same]; rfl

end Counters

section Hub
variable (s : State) (k : Nat) (v : Int) (j : RealmId)

@[simp] theorem hput_now : (s.hput k v).now = s.now := rfl
@[simp] theorem hput_realms : (s.hput k v).realms = s.realms := rfl
@[simp] theorem hput_realm : (s.hput k v).realm j = s.realm j := rfl
@[simp] theorem hput_mems : (s.hput k v).mems = s.mems := rfl
@[simp] theorem hput_pending : (s.hput k v).pending = s.pending := rfl
@[simp] theorem hput_same : (s.hput k v).hget k = v := by
  simp [State.hput, State.hget, Hub.oput, Hub.oget]
theorem hput_ne {i : Nat} (h : i ≠ k) : (s.hput k v).hget i = s.hget i := by
  simp [State.hput, State.hget, Hub.oput, Hub.oget, tget_tput_other _ _ _ _ h]

end Hub

/-! ## Parts of a realm -/

section Parts
variable (s : State) (m : RealmId)

theorem modFrame_realm (f : FrameSt → FrameSt) :
    (s.modFrame m f).realm m = { s.realm m with frame := f (s.realm m).frame } := by simp [State.modFrame]
@[simp] theorem modFrame_same (f : FrameSt → FrameSt) : (s.modFrame m f).frame m = f (s.frame m) := by
  simp [State.frame, modFrame_realm]
@[simp] theorem modFrame_mems (f : FrameSt → FrameSt) : (s.modFrame m f).mems = s.mems := rfl
@[simp] theorem modFrame_hub (f : FrameSt → FrameSt) : (s.modFrame m f).hub = s.hub := rfl
@[simp] theorem modFrame_oget (f : FrameSt → FrameSt) (k : Nat) : (s.modFrame m f).oget m k = s.oget m k := by
  simp [State.oget, modFrame_realm]
theorem modMemory_realm (f : MemSt → MemSt) :
    (s.modMemory m f).realm m = { s.realm m with memory := f (s.realm m).memory } := by simp [State.modMemory]
@[simp] theorem modMemory_mems (f : MemSt → MemSt) : (s.modMemory m f).mems = s.mems := rfl
@[simp] theorem modMemory_hub (f : MemSt → MemSt) : (s.modMemory m f).hub = s.hub := rfl
@[simp] theorem modMemory_oget (f : MemSt → MemSt) (k : Nat) : (s.modMemory m f).oget m k = s.oget m k := by
  simp [State.oget, modMemory_realm]
theorem modBil_realm (f : BilSt → BilSt) :
    (s.modBil m f).realm m = { s.realm m with bil := f (s.realm m).bil } := by simp [State.modBil]
@[simp] theorem modBil_mems (f : BilSt → BilSt) : (s.modBil m f).mems = s.mems := rfl
@[simp] theorem modBil_hub (f : BilSt → BilSt) : (s.modBil m f).hub = s.hub := rfl
@[simp] theorem modBil_oget (f : BilSt → BilSt) (k : Nat) : (s.modBil m f).oget m k = s.oget m k := by
  simp [State.oget, modBil_realm]
theorem modBus_realm (f : BusSt → BusSt) :
    (s.modBus m f).realm m = { s.realm m with bus := f (s.realm m).bus } := by simp [State.modBus]
@[simp] theorem modBus_mems (f : BusSt → BusSt) : (s.modBus m f).mems = s.mems := rfl
@[simp] theorem modBus_hub (f : BusSt → BusSt) : (s.modBus m f).hub = s.hub := rfl
@[simp] theorem modBus_oget (f : BusSt → BusSt) (k : Nat) : (s.modBus m f).oget m k = s.oget m k := by
  simp [State.oget, modBus_realm]
theorem modOut_realm (f : OutSt → OutSt) :
    (s.modOut m f).realm m = { s.realm m with out := f (s.realm m).out } := by simp [State.modOut]
@[simp] theorem modOut_mems (f : OutSt → OutSt) : (s.modOut m f).mems = s.mems := rfl
@[simp] theorem modOut_oget (f : OutSt → OutSt) (k : Nat) : (s.modOut m f).oget m k = s.oget m k := by
  simp [State.oget, modOut_realm]
theorem modGov_realm (f : GovSt → GovSt) :
    (s.modGov m f).realm m = { s.realm m with gov := f (s.realm m).gov } := by simp [State.modGov]
@[simp] theorem modGov_mems (f : GovSt → GovSt) : (s.modGov m f).mems = s.mems := rfl
@[simp] theorem modGov_oget (f : GovSt → GovSt) (k : Nat) : (s.modGov m f).oget m k = s.oget m k := by
  simp [State.oget, modGov_realm]
/-- An interrupt source changes its pending bit alone (14 R494). -/
theorem irq_realm (n : Nat) : (s.irq m n).realm m =
    { s.realm m with bus := { (s.realm m).bus with pend := (s.realm m).bus.pend ||| BitVec.ofNat 64 (2 ^ n) } } := by
  simp [State.irq, modBus_realm]
@[simp] theorem irq_mems (n : Nat) : (s.irq m n).mems = s.mems := rfl
@[simp] theorem irq_oget (n k : Nat) : (s.irq m n).oget m k = s.oget m k := by simp [State.irq]

end Parts

end Sys2Proof.Machine
end

