-- ==== Sys2Proof/Laws/Ops.lean ====
section
/-!
SUPPORT. What each shared operation of Ops.lean can do, once: counters, interrupts, events, reads and writes of stored
vectors change what `Noise` lets them change, and nothing else.
-/
namespace Sys2Proof.Machine

/-- Of the device, only objects of realm `m` listed in `ks`, its error rate, pending interrupts and events, and pending host
interrupts change. -/
structure Noise (m : RealmId) (ks : List Nat) (s t : State) : Prop where
  now : t.now = s.now
  pending : t.pending = s.pending
  free : t.free = s.free
  hub : t.hub = { s.hub with ipend := t.hub.ipend }
  other : ∀ j, j ≠ m → t.realm j = s.realm j
  realm : t.realm m = { s.realm m with objs := (t.realm m).objs,
                                       memory := { (s.realm m).memory with ceRate := (t.realm m).memory.ceRate,
                                                                           ceInterval := (t.realm m).memory.ceInterval, ceRaised := (t.realm m).memory.ceRaised },
                                       bus := { (s.realm m).bus with pend := (t.realm m).bus.pend },
                                       bil := { (s.realm m).bil with log := (t.realm m).bil.log, subs := (t.realm m).bil.subs },
                                       gates := (t.realm m).gates }
  objs : ∀ j, j ∉ ks → t.oget m j = s.oget m j

theorem Noise.refl (m : RealmId) (ks : List Nat) (s : State) : Noise m ks s s :=
  ⟨rfl, rfl, rfl, rfl, fun _ _ => rfl, rfl, fun _ _ => rfl⟩

theorem Noise.trans {m : RealmId} {ks ls : List Nat} {s t u : State} (h : Noise m ks s t) (g : Noise m ls t u) :
    Noise m (ks ++ ls) s u where
  now := g.now.trans h.now
  pending := g.pending.trans h.pending
  free := g.free.trans h.free
  hub := by rw [g.hub, h.hub]
  other j hj := (g.other j hj).trans (h.other j hj)
  realm := by rw [g.realm, h.realm]
  objs j hj := by
    simp only [List.mem_append, not_or] at hj
    rw [g.objs j hj.2, h.objs j hj.1]

theorem Noise.mono {m : RealmId} {ks ls : List Nat} {s t : State} (h : Noise m ks s t) (hl : ∀ k ∈ ks, k ∈ ls) :
    Noise m ls s t := { h with objs := fun j hj => h.objs j (fun hk => hj (hl j hk)) }

/-- Tiles, frame and every other part are as before. -/
theorem Noise.tile {m : RealmId} {ks : List Nat} {s t : State} (h : Noise m ks s t) (j : RealmId) (k : Nat) :
    t.tile j k = s.tile j k := by
  by_cases hj : j = m
  · subst hj; simp only [State.tile]; rw [h.realm]
  · simp only [State.tile, h.other j hj]

theorem Noise.frame {m : RealmId} {ks : List Nat} {s t : State} (h : Noise m ks s t) (j : RealmId) :
    t.frame j = s.frame j := by
  by_cases hj : j = m
  · subst hj; simp only [State.frame]; rw [h.realm]
  · simp only [State.frame, h.other j hj]

theorem Noise.deepPow {m : RealmId} {ks : List Nat} {s t : State} (h : Noise m ks s t) (b : Nat) :
    (t.realm m).deepPow b = (s.realm m).deepPow b := by
  rw [h.realm]; rfl

theorem oput_noise (s : State) (m : RealmId) (k : Nat) (v : Int) : Noise m [k] s (s.oput m k v) where
  now := rfl
  pending := rfl
  free := rfl
  hub := rfl
  other _ hj := oput_realm_ne _ _ _ _ (Ne.symm hj)
  realm := by rw [oput_realm]
  objs j hj := oput_ne _ _ _ _ (by simpa using hj)

theorem bump_noise (s : State) (m : RealmId) (k n : Nat) : Noise m [k] s (s.bump m k n) := oput_noise _ _ _ _

theorem irq_noise (s : State) (m : RealmId) (n : Nat) : Noise m [] s (s.irq m n) where
  now := rfl
  pending := rfl
  free := rfl
  hub := rfl
  other _ hj := modRealm_ne _ _ _ _ (Ne.symm hj)
  realm := by rw [irq_realm]
  objs j _ := irq_oget _ _ _ _

theorem hirq_noise (s : State) (m : RealmId) (n : Nat) : Noise m [] s (s.hirq n) where
  now := rfl
  pending := rfl
  free := rfl
  hub := rfl
  other _ _ := rfl
  realm := rfl
  objs _ _ := rfl

/-- A loop of which no round changes anything changes nothing. -/
theorem forN_fix {α : Type} (n : Nat) (f : Nat → α → α) (a : α) (h : ∀ k, k < n → f k a = a) : forN n f a = a := by
  induction n with
  | zero => rfl
  | succ n ih => rw [forN, ih (fun k hk => h k (by omega)), h n (by omega)]

/-- A change of the realm's own noise fields. -/
theorem modRealm_noise (s : State) (m : RealmId) (f : Realm → Realm)
    (hf : f (s.realm m) = { s.realm m with
      memory := { (s.realm m).memory with ceRate := (f (s.realm m)).memory.ceRate,
                                          ceInterval := (f (s.realm m)).memory.ceInterval, ceRaised := (f (s.realm m)).memory.ceRaised },
      bus := { (s.realm m).bus with pend := (f (s.realm m)).bus.pend },
      bil := { (s.realm m).bil with log := (f (s.realm m)).bil.log, subs := (f (s.realm m)).bil.subs },
      gates := (f (s.realm m)).gates }) : Noise m [] s (s.modRealm m f) where
  now := rfl
  pending := rfl
  free := rfl
  hub := rfl
  other _ hj := modRealm_ne _ _ _ _ (Ne.symm hj)
  realm := by
    simp only [modRealm_same]
    rw [hf]
  objs j _ := by simp only [State.oget, modRealm_same]; rw [hf]

theorem raise_mems (s : State) (m : RealmId) (code k : Nat) : (s.raise m code k).mems = s.mems := by
  unfold State.raise
  dsimp only
  split <;> split <;> rfl

theorem ite_noise {m : RealmId} {ks : List Nat} {s t u : State} (c : Prop) [Decidable c] (ht : Noise m ks s t)
    (hu : Noise m ks s u) : Noise m ks s (if c then t else u) := by
  split
  · exact ht
  · exact hu

theorem raise_noise (s : State) (m : RealmId) (code k : Nat) : Noise m eventKeys s (s.raise m code k) := by
  have hlog : ∀ (l : Tbl EventRec) (u : List Sub),
      Noise m [] s (s.modRealm m (fun r => { r with bil := { r.bil with log := l, subs := u } })) := by
    intro l u
    exact modRealm_noise s m _ rfl
  have h2 := fun l u v => (hlog l u).trans (oput_noise _ m o11_EVENT_NEXT v)
  have h3 := fun l u v (c : Prop) [Decidable c] n => (h2 l u v).trans
    (ite_noise c (Noise.refl m [o28_EVENTS_LOST] _) (bump_noise _ m o28_EVENTS_LOST n))
  have h4 := fun l u v (c : Prop) [Decidable c] n => (h3 l u v c n).trans
    (ite_noise (eventP0 code = true) (hirq_noise _ m (hirqP0 m)) (Noise.refl m [] _))
  refine Noise.mono (h4 _ _ _ _ _) (by simp [eventKeys])

theorem raiseOnce_noise (s : State) (m : RealmId) (code k g : Nat) (p : Time) :
    Noise m eventKeys s (s.raiseOnce m code k g p) := by
  unfold State.raiseOnce
  dsimp only
  refine ite_noise _ ?_ (Noise.refl _ _ _)
  refine Noise.mono ((modRealm_noise s m _ rfl).trans (raise_noise _ m code k)) (by simp)

theorem raiseOnce_mems (s : State) (m : RealmId) (code k g : Nat) (p : Time) : (s.raiseOnce m code k g p).mems = s.mems := by
  unfold State.raiseOnce
  dsimp only
  split
  · rw [raise_mems]; rfl
  · rfl

/-- A corrected error is counted and reported; no memory changes. -/
theorem countCE_noise (s : State) (m : RealmId) (bank vec : Nat) :
    Noise m (readKeys bank) s (s.countCE m bank vec) := by
  have h1 := (bump_noise s m (o18_CE_COUNT + 16 * bank) 1).trans
    (oput_noise _ m (o18_LAST_ERROR + 16 * bank) ((vec * 16 : Nat) : Int))
  have h2 := fun (c : Prop) [Decidable c] iv => h1.trans
    (ite_noise c (Noise.refl m [] _) (modRealm_noise _ m (fun r =>
      { r with memory := { r.memory with ceInterval := iv, ceRate := [], ceRaised := [] } }) rfl))
  have h3 := fun (c : Prop) [Decidable c] iv rate => (h2 c iv).trans (modRealm_noise _ m (fun r =>
      { r with memory := { r.memory with ceRate := rate } }) rfl)
  have h4 := fun (c : Prop) [Decidable c] iv rate => (h3 c iv rate).trans (irq_noise _ m 22)
  have h5 := fun (c : Prop) [Decidable c] iv rate (d : Prop) [Decidable d] => (h4 c iv rate).trans
    (ite_noise d ((modRealm_noise _ m (fun r => { r with memory := { r.memory with ceRaised := bank :: r.memory.ceRaised } })
      rfl).trans (raise_noise _ m 0x1802 (o18_CE_COUNT + 16 * bank))) (Noise.refl m ([] ++ eventKeys) _))
  refine Noise.mono (h5 _ _ _ _) ?_
  intro k hk
  simp only [List.append_nil, List.mem_append, List.mem_cons, List.not_mem_nil, or_false, readKeys] at hk ⊢
  grind

theorem countUE_noise (s : State) (m : RealmId) (bank vec : Nat) :
    Noise m (readKeys bank) s (s.countUE m bank vec) := by
  have h := (((bump_noise s m (o18_UE_COUNT + 16 * bank) 1).trans
    (oput_noise _ m (o18_LAST_ERROR + 16 * bank) ((vec * 16 : Nat) : Int))).trans (irq_noise _ m 2)).trans
    (raiseOnce_noise _ m 0x1801 (o18_UE_COUNT + 16 * bank) bank (sec 1))
  refine Noise.mono h ?_
  intro k hk
  simp only [List.append_nil, List.mem_append, List.mem_cons, List.not_mem_nil, or_false, readKeys] at hk ⊢
  grind

theorem countCE_mems (s : State) (m : RealmId) (bank vec : Nat) : (s.countCE m bank vec).mems = s.mems := by
  unfold State.countCE
  dsimp only
  split <;> split <;> first | rfl | (rw [raise_mems]; rfl)

theorem countUE_mems (s : State) (m : RealmId) (bank vec : Nat) : (s.countUE m bank vec).mems = s.mems := by
  unfold State.countUE
  dsimp only
  rw [raiseOnce_mems]; rfl

/-- A read delivers what the code of the stored vector gives. -/
theorem rdVec_fst (s : State) (m : RealmId) (bank vec : Nat) : (s.rdVec m bank vec).1 = (getVec (s.mem m) bank vec).1 := by
  unfold State.rdVec
  rcases h : getVec (s.mem m) bank vec with ⟨v, o⟩
  cases o <;> rfl

/-- A read changes counters and events of its realm alone, and writes back an uncorrectable vector (07 R252). -/
theorem rdVec_noise (s : State) (m : RealmId) (bank vec : Nat) :
    Noise m (readKeys bank) s (s.rdVec m bank vec).2 := by
  unfold State.rdVec
  rcases h : getVec (s.mem m) bank vec with ⟨v, o⟩
  cases o with
  | clean => exact Noise.refl _ _ _
  | corrected p e => exact countCE_noise _ _ _ _
  | uncorrectable =>
    dsimp only
    split
    · refine Noise.mono (Noise.trans (ks := []) ?_ (countUE_noise _ m bank vec)) (by simp)
      exact ⟨rfl, rfl, rfl, rfl, fun _ _ => rfl, rfl, fun _ _ => rfl⟩
    · exact countUE_noise _ _ _ _

theorem rdVec_mem (s : State) (m : RealmId) (bank vec : Nat) : (s.rdVec m bank vec).2.mem m =
    if (getVec (s.mem m) bank vec).2 = .uncorrectable ∧ bankHasRes bank = true then
      putVec (s.mem m) bank vec (getVec (s.mem m) bank vec).1 else s.mem m := by
  unfold State.rdVec
  rcases h : getVec (s.mem m) bank vec with ⟨v, o⟩
  cases o with
  | clean => simp
  | corrected p e => simp only [State.mem, countCE_mems]; simp
  | uncorrectable =>
    by_cases hb : bankHasRes bank = true
    · simp [hb, State.mem, countUE_mems, State.setMem]
    · simp [hb, State.mem, countUE_mems]

theorem rdVec_mem_ne (s : State) (m : RealmId) (bank vec : Nat) {j : RealmId} (hj : m ≠ j) :
    (s.rdVec m bank vec).2.mem j = s.mem j := by
  unfold State.rdVec
  rcases h : getVec (s.mem m) bank vec with ⟨v, o⟩
  cases o with
  | clean => rfl
  | corrected p e => simp only [State.mem, countCE_mems]
  | uncorrectable =>
    dsimp only
    split
    · simp only [State.mem, countUE_mems]; exact setMem_ne s m j _ hj
    · simp only [State.mem, countUE_mems]

/-! ## The canonical form of memory -/

theorem wrSyms_wf (l : List Nat) : ∀ (c : List Host.Cell) (a : Nat), twf 0 c = true → twf 0 (wrSyms c a l) = true := by
  induction l with
  | nil => intro c a h; exact h
  | cons x r ih => intro c a h; exact ih _ _ (twf_tput 0 c a _ h)

/-- Storing a vector keeps the canonical form. -/
theorem putVec_wf (c : List Host.Cell) (bank vec : Nat) (v : Vec) (h : twf 0 c = true) : twf 0 (putVec c bank vec v) = true :=
  wrSyms_wf _ _ _ h

/-- Zeroing vectors keeps the canonical form. -/
theorem zeroVecs_wf (c : List Host.Cell) (bank lo hi : Nat) (h : twf 0 c = true) : twf 0 (zeroVecs c bank lo hi) = true :=
  twf_tclear 0 c _ _ h

/-- Memory of a realm outside the written symbols reads as before. -/
theorem wrSyms_out (l : List Nat) : ∀ (c : List Host.Cell) (a j : Nat), j < a ∨ a + l.length ≤ j →
    rdSym (wrSyms c a l) j = rdSym c j := by
  induction l with
  | nil => intro c a j _; rfl
  | cons x r ih =>
    intro c a j h
    simp only [List.length_cons] at h
    rw [wrSyms, ih _ _ _ (by omega)]
    exact tget_tput_ne 0 c _ (by omega)

end Sys2Proof.Machine
end

