-- ==== Sys2Proof/Laws/Tile.lean ====
section
/-!
SUPPORT. What a command of a tile can change outside its tile, how a word is opened, and when a command carries out its
operation.
-/
namespace Sys2Proof.Machine

/-- Outside tile `k` of realm `m`, only what `Noise` lets change. -/
structure Along (m : RealmId) (k : Nat) (ks : List Nat) (s t : State) : Prop where
  now : t.now = s.now
  alone : TileAlone m k s t
  objs : ∀ j, j ∉ ks → t.oget m j = s.oget m j

theorem Along.refl (m : RealmId) (k : Nat) (ks : List Nat) (s : State) (hm : ∀ j, j ≠ m → s.mem j = s.mem j := by simp) :
    Along m k ks s s :=
  ⟨rfl, ⟨rfl, rfl, rfl, fun j hj => ⟨rfl, hm j hj⟩, fun _ _ => rfl, rfl⟩, fun _ _ => rfl⟩

theorem Along.trans {m : RealmId} {k : Nat} {ks ls : List Nat} {s t u : State} (h : Along m k ks s t) (g : Along m k ls t u) :
    Along m k (ks ++ ls) s u := by
  obtain ⟨hn, ⟨h1, h2, h3, h4, h5, h6⟩, ho⟩ := h
  obtain ⟨gn, ⟨g1, g2, g3, g4, g5, g6⟩, go⟩ := g
  refine ⟨gn.trans hn, ⟨g1.trans h1, g2.trans h2, ?_, ?_, ?_, ?_⟩, ?_⟩
  · rw [g3, h3]
  · intro j hj
    exact ⟨(g4 j hj).1.trans (h4 j hj).1, (g4 j hj).2.trans (h4 j hj).2⟩
  · intro i hi; exact (g5 i hi).trans (h5 i hi)
  · rw [g6, h6]
  · intro j hj
    simp only [List.mem_append, not_or] at hj
    rw [go j hj.2, ho j hj.1]

theorem Along.mono {m : RealmId} {k : Nat} {ks ls : List Nat} {s t : State} (h : Along m k ks s t)
    (hl : ∀ j ∈ ks, j ∈ ls) : Along m k ls s t := { h with objs := fun j hj => h.objs j (fun hk => hj (hl j hk)) }

theorem Noise.along {m : RealmId} {ks : List Nat} {s t : State} (h : Noise m ks s t) (k : Nat)
    (hm : ∀ j, j ≠ m → t.mem j = s.mem j) : Along m k ks s t :=
  ⟨h.now, ⟨h.pending, h.free, h.hub, fun j hj => ⟨h.other j hj, hm j hj⟩, fun i _ => h.tile m i, by rw [h.realm]⟩, h.objs⟩

theorem Along.realm {m : RealmId} {k : Nat} {ks : List Nat} {s t : State} (h : Along m k ks s t) :
    t.realm m = { s.realm m with objs := (t.realm m).objs, tiles := (t.realm m).tiles,
                                 memory := { (s.realm m).memory with ceRate := (t.realm m).memory.ceRate,
                                                                     ceInterval := (t.realm m).memory.ceInterval, ceRaised := (t.realm m).memory.ceRaised },
                                 bus := { (s.realm m).bus with pend := (t.realm m).bus.pend },
                                 bil := { (s.realm m).bil with log := (t.realm m).bil.log, subs := (t.realm m).bil.subs },
                                 gates := (t.realm m).gates } := h.alone.2.2.2.2.2

theorem Along.frame {m : RealmId} {k : Nat} {ks : List Nat} {s t : State} (h : Along m k ks s t) :
    t.frame m = s.frame m := by
  simp only [State.frame]; rw [h.realm]

theorem Along.deepOn {m : RealmId} {k : Nat} {ks : List Nat} {s t : State} (h : Along m k ks s t) (b : Nat) :
    (t.realm m).deepOn b = (s.realm m).deepOn b := by
  rw [h.realm]; rfl

theorem modTile_along (s : State) (m : RealmId) (k : Nat) (f : Tile → Tile) : Along m k [] s (s.modTile m k f) :=
  ⟨rfl, ⟨rfl, rfl, rfl, fun _ hj => ⟨modTile_realm_ne _ _ _ _ (Ne.symm hj), rfl⟩, fun _ hi => modTile_ne _ _ _ _ hi,
    by rw [modTile_realm]⟩, fun _ _ => modTile_oget _ _ _ _ _ _⟩

theorem bump_along (s : State) (m : RealmId) (k key n : Nat) : Along m k [key] s (s.bump m key n) :=
  (bump_noise s m key n).along k (fun _ _ => rfl)

theorem setMem_along (s : State) (m : RealmId) (k : Nat) (c : List Host.Cell) : Along m k [] s (s.setMem m c) :=
  ⟨rfl, ⟨rfl, rfl, rfl, fun _ hj => ⟨rfl, setMem_ne _ _ _ _ (Ne.symm hj)⟩, fun _ _ => rfl, rfl⟩, fun _ _ => rfl⟩

theorem rdVec_along (s : State) (m : RealmId) (k bank vec : Nat) :
    Along m k (readKeys bank) s (s.rdVec m bank vec).2 :=
  (rdVec_noise s m bank vec).along k (fun _ hj => rdVec_mem_ne s m bank vec (Ne.symm hj))

theorem progBank_res (x : Tile) (k : TileId) : bankHasRes (progBank x k) = false := by
  have := k.isLt
  unfold bankHasRes progBank
  split <;> simp <;> omega

/-- Opening a word fetches it: the tile has its word, no memory changes, and the fetch is accounted for (07 R253). -/
theorem openStep_tile (s : State) (m : RealmId) (k : TileId) : (openStep s m k).tile m k = openTile s m k := by
  unfold openStep openTile
  dsimp only
  split
  · rfl
  · rw [modTile_same, (rdVec_noise s m _ _).tile]; rfl

theorem openStep_mem (s : State) (m : RealmId) (k : TileId) : (openStep s m k).mem m = s.mem m := by
  unfold openStep
  dsimp only
  split
  · rfl
  · rw [modTile_mem, rdVec_mem, progBank_res]; simp

theorem openStep_along (s : State) (m : RealmId) (k : TileId) : Along m k (fetchKeys s m k) s (openStep s m k) := by
  unfold openStep
  dsimp only
  split
  · exact Along.refl _ _ _ _
  · exact ((rdVec_along s m k _ _).trans (modTile_along _ _ _ _)).mono (by simp [fetchKeys])

/-- When a tile issues, an operation runs on the opened word with its slot marked. -/
theorem tileOp_issues (e : TEv) (sl : Slot) (s : State) (f : State → State) (h : Issues e sl s) :
    tileOp e sl s f = .next (f ((openStep (s.at e.t) e.m e.k).modTile e.m e.k (fun x => { x with used := sl :: x.used }))) := by
  obtain ⟨h1, h2⟩ := h
  have hd : ((openStep (s.at e.t) e.m e.k).tile e.m e.k).dead = false
      ∧ sl ∉ ((openStep (s.at e.t) e.m e.k).tile e.m e.k).used := by
    rw [openStep_tile]
    unfold openTile fetchBad
    simp only [at_tile, at_mem]
    split at h2
    · next ho => simp [ho, h2]
    · next ho => simp [ho, h2]
  have hu : ((openStep (s.at e.t) e.m e.k).tile e.m e.k).used.contains sl = false := by simpa using hd.2
  unfold tileOp
  simp only [at_tile, h1, if_true, hd.1, hu, Bool.or_false, Bool.false_eq_true, if_false]

/-- The tile on which an operation runs: its word is open, its slot is marked, and no register has changed. -/
def issueState (e : TEv) (sl : Slot) (s : State) : State :=
  (openStep (s.at e.t) e.m e.k).modTile e.m e.k (fun x => { x with used := sl :: x.used })

theorem issueState_tile (e : TEv) (sl : Slot) (s : State) (h : Issues e sl s) :
    (issueState e sl s).tile e.m e.k = wordTile (s.tile e.m e.k) sl (s.tile e.m e.k).flight := by
  obtain ⟨_, h2⟩ := h
  unfold issueState
  rw [modTile_same, openStep_tile]
  unfold openTile wordTile fetchBad
  simp only [at_tile, at_mem]
  split at h2
  · next ho => simp [ho, h2]
  · next ho => simp [ho, h2]

@[simp] theorem issueState_mem (e : TEv) (sl : Slot) (s : State) : (issueState e sl s).mem e.m = s.mem e.m := by
  unfold issueState
  rw [modTile_mem, openStep_mem, at_mem]

/-- Time apart, the state on which an operation runs differs from `s` as `Along` lets it. -/
theorem issueState_along (e : TEv) (sl : Slot) (s : State) :
    Along e.m e.k (fetchKeys s e.m e.k) (s.at e.t) (issueState e sl s) :=
  ((openStep_along (s.at e.t) e.m e.k).trans (modTile_along _ _ _ _)).mono (by simp [fetchKeys])

/-- What follows from `Along` after the instant of the command. -/
theorem Along.issued {e : TEv} {ks : List Nat} {y : Tile} {s t : State}
    (h : Along e.m e.k (ks ++ fetchKeys s e.m e.k) (s.at e.t) t) (hm : t.mem e.m = s.mem e.m) (hy : t.tile e.m e.k = y) :
    Issued e ks y s t := ⟨h.alone, hm, h.objs, hy⟩

/-! ## Accesses in one step -/

/-- A bus access reaches memory alone while no step of a tile is open. -/
theorem portAccess_closed (s : State) (m : RealmId) (bank vec : Nat) (a : PortAct)
    (h : ∀ k, (s.tile m k).opened = false) : portAccess s m bank vec a = s := by
  unfold portAccess
  exact forN_fix _ _ _ (fun k _ => by simp [h])

/-- A load of a vector that the bus has not accessed in the step reads memory. -/
theorem tileLoad_clear (s : State) (m : RealmId) (k bank vec : Nat)
    (h : (s.tile m k).portB.find? (fun p => p.bank == bank && p.vec == vec) = none) :
    tileLoad s m k bank vec = s.rdVec m bank vec := by
  unfold tileLoad
  rw [h]

/-- A store in flight that comes in time writes its vector, after the bus accesses to it of the step have been carried out again. -/
theorem landStore_mem (s : State) (m : RealmId) (k : Nat) (d : Dst) (b v : Nat) (w : Vec) (hd : dstPlace k d = some (b, v, w))
    (hl : lateStore (s.frame m) (s.tile m k) d = false) :
    (landStore s m k d).mem m = portStore (s.tile m k) (s.mem m) b v w := by
  unfold landStore
  rw [hd]
  simp only [hl, Bool.false_eq_true, if_false]
  split
  · rw [modTile_mem, setMem_same]
  · rw [setMem_same]

end Sys2Proof.Machine
end

