-- ==== Sys2Proof/Laws/Units.lean ====
section
/-!
SUPPORT. What the state reads after each update of a unit of a realm (ports, clocks, network, PTP, streams, pairing, output
channels, sessions) and of the Host Hub (mailboxes, power): one lemma per field and update.
-/
namespace Sys2Proof.Machine

section Ports
variable (s : State) (m : RealmId) (p : Nat) (f : Port → Port)

@[simp] theorem modPort_now : (s.modPort m p f).now = s.now := rfl
@[simp] theorem modPort_free : (s.modPort m p f).free = s.free := rfl
@[simp] theorem modPort_hub : (s.modPort m p f).hub = s.hub := rfl
@[simp] theorem modPort_mems : (s.modPort m p f).mems = s.mems := rfl
@[simp] theorem modPort_pending : (s.modPort m p f).pending = s.pending := rfl
theorem modPort_realm_ne {j : RealmId} (h : m ≠ j) : (s.modPort m p f).realm j = s.realm j := modRealm_ne _ _ _ _ h
theorem modPort_realm : (s.modPort m p f).realm m =
    { s.realm m with ports := tmod Port.reset (s.realm m).ports p f } := by simp [State.modPort]
@[simp] theorem modPort_same : (s.modPort m p f).port m p = f (s.port m p) := by
  simp [State.port, modPort_realm, tmod]
@[simp] theorem modPort_oget (k' : Nat) : (s.modPort m p f).oget m k' = s.oget m k' := by simp [State.oget, modPort_realm]

end Ports

section Clocks
variable (s : State) (m : RealmId) (f : ClockSt → ClockSt)

@[simp] theorem modClock_now : (s.modClock m f).now = s.now := rfl
@[simp] theorem modClock_free : (s.modClock m f).free = s.free := rfl
@[simp] theorem modClock_hub : (s.modClock m f).hub = s.hub := rfl
@[simp] theorem modClock_mems : (s.modClock m f).mems = s.mems := rfl
@[simp] theorem modClock_pending : (s.modClock m f).pending = s.pending := rfl
theorem modClock_realm_ne {j : RealmId} (h : m ≠ j) : (s.modClock m f).realm j = s.realm j := modRealm_ne _ _ _ _ h
theorem modClock_realm : (s.modClock m f).realm m =
    { s.realm m with clock := f (s.realm m).clock } := by simp [State.modClock]
@[simp] theorem modClock_same : (s.modClock m f).clock m = f (s.clock m) := by
  simp [State.clock, modClock_realm]
@[simp] theorem modClock_oget (k' : Nat) : (s.modClock m f).oget m k' = s.oget m k' := by simp [State.oget, modClock_realm]

end Clocks

section Candidates
variable (s : State) (m : RealmId) (c : Nat) (f : Cand → Cand)

@[simp] theorem modCand_now : (s.modCand m c f).now = s.now := rfl
@[simp] theorem modCand_free : (s.modCand m c f).free = s.free := rfl
@[simp] theorem modCand_hub : (s.modCand m c f).hub = s.hub := rfl
@[simp] theorem modCand_mems : (s.modCand m c f).mems = s.mems := rfl
@[simp] theorem modCand_pending : (s.modCand m c f).pending = s.pending := rfl
theorem modCand_realm_ne {j : RealmId} (h : m ≠ j) : (s.modCand m c f).realm j = s.realm j := modRealm_ne _ _ _ _ h
theorem modCand_realm : (s.modCand m c f).realm m =
    { s.realm m with clock := { (s.realm m).clock with cands := tmod Cand.reset (s.realm m).clock.cands c f } } := by simp [State.modCand, State.modClock]
@[simp] theorem modCand_same : (s.modCand m c f).cand m c = f (s.cand m c) := by
  simp [State.cand, State.clock, modCand_realm, tmod]
@[simp] theorem modCand_oget (k' : Nat) : (s.modCand m c f).oget m k' = s.oget m k' := by simp [State.oget, modCand_realm]

end Candidates

section Network
variable (s : State) (m : RealmId) (f : NetSt → NetSt)

@[simp] theorem modNet_now : (s.modNet m f).now = s.now := rfl
@[simp] theorem modNet_free : (s.modNet m f).free = s.free := rfl
@[simp] theorem modNet_hub : (s.modNet m f).hub = s.hub := rfl
@[simp] theorem modNet_mems : (s.modNet m f).mems = s.mems := rfl
@[simp] theorem modNet_pending : (s.modNet m f).pending = s.pending := rfl
theorem modNet_realm_ne {j : RealmId} (h : m ≠ j) : (s.modNet m f).realm j = s.realm j := modRealm_ne _ _ _ _ h
theorem modNet_realm : (s.modNet m f).realm m =
    { s.realm m with net := f (s.realm m).net } := by simp [State.modNet]
@[simp] theorem modNet_same : (s.modNet m f).net m = f (s.net m) := by
  simp [State.net, modNet_realm]
@[simp] theorem modNet_oget (k' : Nat) : (s.modNet m f).oget m k' = s.oget m k' := by simp [State.oget, modNet_realm]

end Network

section NetPorts
variable (s : State) (m : RealmId) (p : Nat) (f : NetPort → NetPort)

@[simp] theorem modNport_now : (s.modNport m p f).now = s.now := rfl
@[simp] theorem modNport_free : (s.modNport m p f).free = s.free := rfl
@[simp] theorem modNport_hub : (s.modNport m p f).hub = s.hub := rfl
@[simp] theorem modNport_mems : (s.modNport m p f).mems = s.mems := rfl
@[simp] theorem modNport_pending : (s.modNport m p f).pending = s.pending := rfl
theorem modNport_realm_ne {j : RealmId} (h : m ≠ j) : (s.modNport m p f).realm j = s.realm j := modRealm_ne _ _ _ _ h
theorem modNport_realm : (s.modNport m p f).realm m =
    { s.realm m with net := { (s.realm m).net with ports := tmod NetPort.reset (s.realm m).net.ports p f } } := by simp [State.modNport, State.modNet]
@[simp] theorem modNport_same : (s.modNport m p f).nport m p = f (s.nport m p) := by
  simp [State.nport, State.net, modNport_realm, tmod]
@[simp] theorem modNport_oget (k' : Nat) : (s.modNport m p f).oget m k' = s.oget m k' := by simp [State.oget, modNport_realm]

end NetPorts

section Ptp
variable (s : State) (m : RealmId) (f : PtpSt → PtpSt)

@[simp] theorem modPtp_now : (s.modPtp m f).now = s.now := rfl
@[simp] theorem modPtp_free : (s.modPtp m f).free = s.free := rfl
@[simp] theorem modPtp_hub : (s.modPtp m f).hub = s.hub := rfl
@[simp] theorem modPtp_mems : (s.modPtp m f).mems = s.mems := rfl
@[simp] theorem modPtp_pending : (s.modPtp m f).pending = s.pending := rfl
theorem modPtp_realm_ne {j : RealmId} (h : m ≠ j) : (s.modPtp m f).realm j = s.realm j := modRealm_ne _ _ _ _ h
theorem modPtp_realm : (s.modPtp m f).realm m =
    { s.realm m with net := { (s.realm m).net with ptp := f (s.realm m).net.ptp } } := by simp [State.modPtp, State.modNet]
@[simp] theorem modPtp_same : (s.modPtp m f).ptp m = f (s.ptp m) := by
  simp [State.ptp, State.net, modPtp_realm]
@[simp] theorem modPtp_oget (k' : Nat) : (s.modPtp m f).oget m k' = s.oget m k' := by simp [State.oget, modPtp_realm]

end Ptp

section Receivers
variable (s : State) (m : RealmId) (k : Nat) (f : Rx → Rx)

@[simp] theorem modRx_now : (s.modRx m k f).now = s.now := rfl
@[simp] theorem modRx_free : (s.modRx m k f).free = s.free := rfl
@[simp] theorem modRx_hub : (s.modRx m k f).hub = s.hub := rfl
@[simp] theorem modRx_mems : (s.modRx m k f).mems = s.mems := rfl
@[simp] theorem modRx_pending : (s.modRx m k f).pending = s.pending := rfl
theorem modRx_realm_ne {j : RealmId} (h : m ≠ j) : (s.modRx m k f).realm j = s.realm j := modRealm_ne _ _ _ _ h
theorem modRx_realm : (s.modRx m k f).realm m =
    { s.realm m with net := { (s.realm m).net with rx := tmod Rx.reset (s.realm m).net.rx k f } } := by simp [State.modRx, State.modNet]
@[simp] theorem modRx_same : (s.modRx m k f).rxst m k = f (s.rxst m k) := by
  simp [State.rxst, State.net, modRx_realm, tmod]
@[simp] theorem modRx_oget (k' : Nat) : (s.modRx m k f).oget m k' = s.oget m k' := by simp [State.oget, modRx_realm]

end Receivers

section Transmitters
variable (s : State) (m : RealmId) (k : Nat) (f : Tx → Tx)

@[simp] theorem modTx_now : (s.modTx m k f).now = s.now := rfl
@[simp] theorem modTx_free : (s.modTx m k f).free = s.free := rfl
@[simp] theorem modTx_hub : (s.modTx m k f).hub = s.hub := rfl
@[simp] theorem modTx_mems : (s.modTx m k f).mems = s.mems := rfl
@[simp] theorem modTx_pending : (s.modTx m k f).pending = s.pending := rfl
theorem modTx_realm_ne {j : RealmId} (h : m ≠ j) : (s.modTx m k f).realm j = s.realm j := modRealm_ne _ _ _ _ h
theorem modTx_realm : (s.modTx m k f).realm m =
    { s.realm m with net := { (s.realm m).net with tx := tmod Tx.reset (s.realm m).net.tx k f } } := by simp [State.modTx, State.modNet]
@[simp] theorem modTx_same : (s.modTx m k f).txst m k = f (s.txst m k) := by
  simp [State.txst, State.net, modTx_realm, tmod]
@[simp] theorem modTx_oget (k' : Nat) : (s.modTx m k f).oget m k' = s.oget m k' := by simp [State.oget, modTx_realm]

end Transmitters

section Pairs
variable (s : State) (m : RealmId) (f : PairSt → PairSt)

@[simp] theorem modPair_now : (s.modPair m f).now = s.now := rfl
@[simp] theorem modPair_free : (s.modPair m f).free = s.free := rfl
@[simp] theorem modPair_hub : (s.modPair m f).hub = s.hub := rfl
@[simp] theorem modPair_mems : (s.modPair m f).mems = s.mems := rfl
@[simp] theorem modPair_pending : (s.modPair m f).pending = s.pending := rfl
theorem modPair_realm_ne {j : RealmId} (h : m ≠ j) : (s.modPair m f).realm j = s.realm j := modRealm_ne _ _ _ _ h
theorem modPair_realm : (s.modPair m f).realm m =
    { s.realm m with pair := f (s.realm m).pair } := by simp [State.modPair]
@[simp] theorem modPair_same : (s.modPair m f).pair m = f (s.pair m) := by
  simp [State.pair, modPair_realm]
@[simp] theorem modPair_oget (k' : Nat) : (s.modPair m f).oget m k' = s.oget m k' := by simp [State.oget, modPair_realm]

end Pairs

section Channels
variable (s : State) (m : RealmId) (c : Nat) (f : Chan → Chan)

@[simp] theorem modChan_now : (s.modChan m c f).now = s.now := rfl
@[simp] theorem modChan_free : (s.modChan m c f).free = s.free := rfl
@[simp] theorem modChan_hub : (s.modChan m c f).hub = s.hub := rfl
@[simp] theorem modChan_mems : (s.modChan m c f).mems = s.mems := rfl
@[simp] theorem modChan_pending : (s.modChan m c f).pending = s.pending := rfl
theorem modChan_realm_ne {j : RealmId} (h : m ≠ j) : (s.modChan m c f).realm j = s.realm j := modRealm_ne _ _ _ _ h
theorem modChan_realm : (s.modChan m c f).realm m =
    { s.realm m with out := { (s.realm m).out with chans := tmod Chan.reset (s.realm m).out.chans c f } } := by simp [State.modChan, State.modOut]
@[simp] theorem modChan_same : (s.modChan m c f).chan m c = f (s.chan m c) := by
  simp [State.chan, chanGet, modChan_realm, tmod]
@[simp] theorem modChan_oget (k' : Nat) : (s.modChan m c f).oget m k' = s.oget m k' := by simp [State.oget, modChan_realm]

end Channels

section Sessions
variable (s : State) (m : RealmId) (i : Nat) (f : Session → Session)

@[simp] theorem modSession_now : (s.modSession m i f).now = s.now := rfl
@[simp] theorem modSession_free : (s.modSession m i f).free = s.free := rfl
@[simp] theorem modSession_hub : (s.modSession m i f).hub = s.hub := rfl
@[simp] theorem modSession_mems : (s.modSession m i f).mems = s.mems := rfl
@[simp] theorem modSession_pending : (s.modSession m i f).pending = s.pending := rfl
theorem modSession_realm_ne {j : RealmId} (h : m ≠ j) : (s.modSession m i f).realm j = s.realm j := modRealm_ne _ _ _ _ h
theorem modSession_realm : (s.modSession m i f).realm m =
    { s.realm m with bil := { (s.realm m).bil with sessions := (s.realm m).bil.sessions.map (fun x => if x.id = i then f x else x) } } := by simp [State.modSession, State.modBil]
@[simp] theorem modSession_oget (k' : Nat) : (s.modSession m i f).oget m k' = s.oget m k' := by simp [State.oget, modSession_realm]

end Sessions

section HubParts
variable (s : State) (j : RealmId) (n : Nat) (f : Hub → Hub) (g : Mailbox → Mailbox) (h : Power → Power)

@[simp] theorem modHub_now : (s.modHub f).now = s.now := rfl
@[simp] theorem modHub_free : (s.modHub f).free = s.free := rfl
@[simp] theorem modHub_realms : (s.modHub f).realms = s.realms := rfl
@[simp] theorem modHub_mems : (s.modHub f).mems = s.mems := rfl
@[simp] theorem modHub_pending : (s.modHub f).pending = s.pending := rfl
@[simp] theorem modHub_realm : (s.modHub f).realm j = s.realm j := rfl
@[simp] theorem modBox_now : (s.modBox n g).now = s.now := rfl
@[simp] theorem modBox_free : (s.modBox n g).free = s.free := rfl
@[simp] theorem modBox_realms : (s.modBox n g).realms = s.realms := rfl
@[simp] theorem modBox_mems : (s.modBox n g).mems = s.mems := rfl
@[simp] theorem modBox_pending : (s.modBox n g).pending = s.pending := rfl
@[simp] theorem modBox_realm : (s.modBox n g).realm j = s.realm j := rfl
@[simp] theorem modPower_now : (s.modPower h).now = s.now := rfl
@[simp] theorem modPower_free : (s.modPower h).free = s.free := rfl
@[simp] theorem modPower_realms : (s.modPower h).realms = s.realms := rfl
@[simp] theorem modPower_mems : (s.modPower h).mems = s.mems := rfl
@[simp] theorem modPower_pending : (s.modPower h).pending = s.pending := rfl
@[simp] theorem modPower_realm : (s.modPower h).realm j = s.realm j := rfl
@[simp] theorem modHub_hub : (s.modHub f).hub = f s.hub := rfl
@[simp] theorem modBox_hub : (s.modBox n g).hub = { s.hub with boxes := tmod Mailbox.empty s.hub.boxes n g } := rfl
@[simp] theorem modPower_power : (s.modPower h).hub.power = h s.hub.power := rfl

end HubParts

end Sys2Proof.Machine
end

