-- ==== Sys2Proof/Tests/Slice0.lean ====
section
/-!
SUPPORT. Tests: ill-formed operands, instruction words written out from 05 Tables 5-1 to 5-8, small steps, and for every
statement with hypotheses a state that meets them (`witness_…`, one conjunct per clause).
-/
namespace Sys2Proof.Tests

open Sys2Proof.Machine

set_option Elab.async false

/-! ## Operands that are not well formed -/

def plain : AddrF := ⟨0, false, 0, false, 0⟩

theorem test_wf_offset_without_oe : (Instr.ldx ⟨0, 0, 0⟩ ⟨0, { plain with o := 1 }⟩).wf = false := by decide
theorem test_wf_modulo_without_oe : (Instr.ldy ⟨0, 0, 0⟩ ⟨0, { plain with me := true }⟩).wf = false := by decide
theorem test_wf_register_without_me : (Instr.std ⟨0, 0, 0⟩ ⟨0, ⟨0, true, 0, false, 1⟩⟩).wf = false := by decide
theorem test_wf_mova_wmask : (Instr.mova ⟨0, 0, 0⟩ ⟨0, 0, 0, 0⟩).wf = false := by decide
theorem test_wf_reserved_code : (Instr.movsR ⟨0, 0, 0⟩ ⟨0, 0x39⟩).wf = false := by decide
theorem test_wf_reserved_lane : (Instr.movsW ⟨0, 0, 0⟩ ⟨0, 0x43⟩).wf = false := by decide
theorem test_wf_amod_immediate : (Instr.amod ⟨0, 0, 0⟩ ⟨.x, 0, true, 0, false, 0, 1⟩).wf = false := by decide
theorem test_wf_setscl_mode : (Instr.setscl ⟨0, 0, 0⟩ ⟨0, 0, false, 0, 0, 0, false, 0⟩).wf = false := by decide
theorem test_wf_setscl_link : (Instr.setscl ⟨0, 0, 0⟩ ⟨0, 2, false, 0, 0, 3, false, 0⟩).wf = false := by decide
theorem test_wf_legal : (Instr.ldx ⟨0, 0, 0⟩ ⟨31, ⟨7, true, 7, true, 3⟩⟩).wf = true := by decide

/-! ## Words written out from the tables: M ++ X ++ Y ++ S ++ C -/

def word (m : BitVec 32) (x y s c : BitVec 24) : BitVec 128 := m ++ x ++ y ++ s ++ c

/-- `ADD` D V3, A V1, B V2, SAT (Table 5-2). -/
theorem test_decode_add : decodeWord (word 0b00100_00011_00001_00010_00000_1000000 0 0 0 0) =
    some ⟨.add ⟨3, 1, 2, true⟩, .nop, .nop, .nop, .nop⟩ := by decide
/-- `MUL` D ACC5, A V31, B V16, BB, BL 2. -/
theorem test_decode_mul : decodeWord (word 0b00001_00101_11111_10000_00000_1100000 0 0 0 0) =
    some ⟨.mul ⟨5, 31, 16, true, 2⟩, .nop, .nop, .nop, .nop⟩ := by decide
/-- `CMP` P2, V4, V5, COND LE, COMB OR. -/
theorem test_decode_cmp : decodeWord (word 0b01011_00010_00100_00101_00000_0111000 0 0 0 0) =
    some ⟨.cmp ⟨2, 4, 5, .le, .or⟩, .nop, .nop, .nop, .nop⟩ := by decide
/-- `LDX.E` V9 from AX3, post-modify OX6, modulo MX1 (Table 5-4). -/
theorem test_decode_ldx_e : decodeWord (word 0 0b011_01001_011_1_110_1_01_000000 0 0 0) =
    some ⟨.nop, .ldxE ⟨9, ⟨3, true, 6, true, 1⟩⟩, .nop, .nop, .nop⟩ := by decide
/-- `LDY.D` V1 from AY7. -/
theorem test_decode_ldy_d : decodeWord (word 0 0 0b011_00001_111_0_000_0_00_000000 0 0) =
    some ⟨.nop, .nop, .ldyD ⟨1, ⟨7, false, 0, false, 0⟩⟩, .nop, .nop⟩ := by decide
/-- `STE` V17 to AX2 (Table 5-6). -/
theorem test_decode_ste : decodeWord (word 0 0 0 0b0011_10001_010_0_000_0_00_00000 0) =
    some ⟨.nop, .nop, .nop, .ste ⟨17, ⟨2, false, 0, false, 0⟩⟩, .nop⟩ := by decide
/-- `MOVS.R` V6 from code 0x38, `EPOCH` (Table 5-7). -/
theorem test_decode_movs_r : decodeWord (word 0 0 0 0b1000_00110_0111000_00000000 0) =
    some ⟨.nop, .nop, .nop, .movsR ⟨6, 0x38⟩, .nop⟩ := by decide
/-- `LOOP` with ROT, N 48 (Table 5-8). -/
theorem test_decode_loop : decodeWord (word 0 0 0 0 0b0001_1_000_0000000000101111) =
    some ⟨.nop, .nop, .nop, .nop, .loop ⟨true, 47⟩⟩ := by decide
theorem test_decode_bar : decodeWord (word 0 0 0 0 0b0100_00000000000000000_101) =
    some ⟨.nop, .nop, .nop, .nop, .bar 5⟩ := by decide
/-- A reserved M opcode makes the word illegal. -/
theorem test_decode_reserved : decodeWord (word 0b01111_00000_00000_00000_00000_0000000 0 0 0 0) = none := by decide

/-! ## Small states -/

def at1 : Ev := ⟨1000000, 0⟩
def tile1 : TEv := ⟨1000000, 0, 0⟩

/-- Realm 0 changed, and objects of it written. -/
def realm0 (f : Realm → Realm) (l : List (Nat × Int)) : State :=
  l.foldl (fun s x => s.oput 0 x.1 x.2) (State.reset.modRealm 0 f)

/-- Realm 0 with one tile. -/
def tiled (x : Tile) (f : FrameSt → FrameSt) : State :=
  realm0 (fun r => { r with tiles := [(0, x)], frame := f r.frame }) []

def fore : Tile := { Tile.reset with ctx := .fore false }

/-- An image of one section, its contents at 0x90 (03 Tables 3-4 and 3-5). -/
def image (type tile : Nat) (body : List Byte) : List Byte :=
  List.replicate 0x14 0 ++ [1, 0] ++ List.replicate 0x6A 0 ++ toLe 2 type ++ toLe 2 tile ++ toLe 4 0x90 ++ toLe 4 body.length
    ++ toLe 4 0 ++ body

def running (i : List Byte) (f : FrameSt) : FrameSt := { f with running := true, imgA := i, stA := 4 }

/-! ## Tiles -/

theorem witness_Issues : ∀ sl ∈ [Slot.m, .x, .y, .s, .c], Issues tile1 sl (tiled fore id)
    ∧ Issues tile1 sl (tiled { fore with opened := true, used := [Slot.m, .x, .y, .s, .c].filter (· != sl) } id)
    ∧ Issues tile1 sl (tiled { fore with ctx := .slack 3 } id) := by
  unfold Issues; decide +kernel

/-- A slot of deep bank 2 for tile 0, both contexts, writable, bytes 0 to 15. -/
def slots2 : FrameSt → FrameSt := running (image 7 0xFF ([2, 0, 2, 1] ++ toLe 4 0 ++ toLe 4 16 ++ toLe 4 0))
/-- AY0 at a word of deep memory, bank 2 ON or OFF. -/
def deepTile (a : Nat) (on : Bool) : State :=
  (tiled { fore with regs := { Regs.reset with ay := [(0, BitVec.ofNat 24 a)] } } slots2).modMemory 0
    (fun x => { x with deep := [(2, ⟨if on then 0 else 2, none, false⟩)] })

theorem witness_LoadsSharedMemory_StoresSharedMemory_deep : ∀ wr : Bool,
    let sl := if wr then Slot.s else .y
    let ok := fun s => slotAllows (tileImg (s.frame 0) (s.tile 0 0)) (s.tile 0 0) 0 (wordAddr (s.tile 0 0).regs .y plain 22) wr
    (Issues tile1 sl (deepTile 131075 true) ∧ ok (deepTile 131075 true) = true ∧ ((deepTile 131075 true).realm 0).deepOn 2 = true)
    ∧ (Issues tile1 sl (deepTile 131075 false) ∧ ok (deepTile 131075 false) = true ∧ ((deepTile 131075 false).realm 0).deepOn 2 = false)
    ∧ (Issues tile1 sl (deepTile 131076 true) ∧ ok (deepTile 131076 true) = false) := by
  unfold Issues; decide +kernel

/-- Vector 3 is an output of tile 0. -/
def outputs (late : Bool) : State :=
  tiled { fore with regs := { Regs.reset with ax := [(0, 12), (1, 16)] } } (fun f =>
    { running (image 6 0xFF ([3, 0, 1, 0] ++ List.replicate 8 0)) f with deadline := late })

theorem witness_StoresSharedMemory :
    let out := fun s a => exchStore (s.frame 0) (s.tile 0 0) 0 (wordAddr (s.tile 0 0).regs .x { plain with a := a } 17 / 4)
    (Issues tile1 .s (outputs false) ∧ out (outputs false) 0 = .store 3) ∧ (Issues tile1 .s (outputs false) ∧ out (outputs false) 1 = .violation)
    ∧ (Issues tile1 .s (outputs true) ∧ out (outputs true) 0 = .late) := by
  unfold Issues; decide +kernel

theorem witness_ModuloStaysInBuffer : (0 : Nat) < 65536 ∧ 0 < 1 ∧ 65535 < 65536 := by decide

theorem witness_MovesSpecial : Issues tile1 .s (tiled fore id) ∧ specOf 0x40 = some (.acc 0 0) ∧ specOf 0x38 = some .epoch
    ∧ specOf 0x39 = none := by
  unfold Issues; decide +kernel

/-- Barrier 0 of tile 0. -/
def barrier0 (x : Tile) : State := tiled x (running (image 5 0xFF [1, 0]))

theorem witness_BarriersJoinAndRelease :
    let at0 := fun b : Fin 8 => barLegal (tileImg ((barrier0 fore).frame 0) fore) fore 0 b
    let w := barrier0 { fore with ctx := .barrier 0 false }
    (Issues tile1 .c (barrier0 fore) ∧ at0 0 = true ∧ at0 1 = false)
    ∧ barMask (bankImg (w.frame 0) 0) 0 ≠ 0
    ∧ ∀ k, k < 16 → maskHas (barMask (bankImg (w.frame 0) 0) 0) k = true → (w.tile 0 k).bank = 0 ∧ (w.tile 0 k).ctx = .barrier 0 false := by
  unfold Issues; decide +kernel

/-- One entry of the slack table of tile 0. -/
def slack0 (c : Ctx) : State := tiled { Tile.reset with ctx := c } (running (image 9 0 (List.replicate 32 0)))

theorem witness_YieldAndHalt :
    Issues tile1 .c (slack0 (.slack 0)) ∧ Issues tile1 .c (slack0 (.restore 0)) ∧ Issues tile1 .c (slack0 (.fore true))
    ∧ (Issues tile1 .c (slack0 (.save 0)) ∧ lateTarget ((slack0 (.save 0)).frame 0) 0 = none)
    ∧ 0 < (slackTable (tileImg ((slack0 (.restore 0)).frame 0) Tile.reset) 0).length := by
  unfold Issues; decide +kernel

theorem witness_StepEndLands :
    let y := fun c n => openTile (tiled { Tile.reset with ctx := c, pc := n } id) 0 0
    (ctxRuns (.slack 0) = true ∧ (y (.slack 0) 8190).nextPc ≤ 8191) ∧ (ctxRuns (.fore false) = true ∧ ctxSlack (y (.fore false) 8191).ctx = false)
    ∧ (ctxRuns (.save 0) = true ∧ (y (.save 0) 8191).ctx = .save 0 ∧ 8191 < (y (.save 0) 8191).nextPc) := by
  decide +kernel

/-- Two symbols of the word at address 0 are damaged. -/
def damagedWord : State :=
  let s := tiled fore id
  s.setMem 0 (wrSym (wrSym (s.mem 0) (symAddr 0x20 0 0) 1) (symAddr 0x20 0 1) 1)

theorem witness_NopIssuesNothing :
    (Issues tile1 .m (tiled fore id) ∧ slotLegal .m 0 = true ∧ slotLegal .m 0x78000000 = false)
    ∧ opOf (.halt tile1) = some (tile1, .c) ∧ ctxRuns (damagedWord.tile 0 0).ctx = true ∧ (damagedWord.tile 0 0).opened = false
    ∧ fetchBad damagedWord 0 0 = true ∧ ctxRuns (State.reset.tile 0 0).ctx = false
    ∧ Slot.c ∈ ((tiled { fore with opened := true, used := [.c] } id).tile 0 0).used := by
  unfold Issues; decide +kernel

/-! ## Frames, loading, SWAP -/

/-- Realm 0 in RUN with its Keeper running. -/
def live (f : Realm → Realm) (l : List (Nat × Int)) : State :=
  realm0 (fun r => f { r with mode := .run, bus := { r.bus with keeper := true } }) l

def framed (f : FrameSt → FrameSt) : State := live (fun r => { r with frame := f r.frame }) []

theorem witness_FrameTickCounts :
    let s := framed (fun f => { f with ticked := true })
    let u := live (fun r => { r with frame := { r.frame with ticked := true } }) [(o22_SELECTED, 0)]
    (s.realm 0).mode ≠ .dormant ∧ (s.realm 0).xo = true ∧ tickDue (s.at (ms 1)) 0 = true ∧ tickDue ((framed id).at 0) 0 = true
    ∧ tickDue (u.at (ms 1)) 0 = true ∧ selected (s.at 0) 0 ≠ 0 ∧ (s.frame 0).ticked = true ∧ ((framed id).frame 0).ticked = false
    ∧ selected (u.at 0) 0 = 0 ∧ (u.frame 0).byPtp = false ∧ (u.frame 0).armed = none := by
  decide +kernel

theorem witness_StartAndDeadline :
    let t := fun (b : Bool) => (framed (fun f => { f with ticked := true, running := b })).frame 0
    let d := (framed (fun f => { f with started := true })).frame 0
    ((t true).ticked = true ∧ (t true).started = false ∧ (t true).running = true)
    ∧ ((t false).ticked = true ∧ (t false).started = false ∧ (t false).running = false) ∧ d.started = true ∧ d.deadline = false := by
  decide +kernel

theorem witness_StartAndDeadline_tile :
    let s := tiled Tile.reset (fun f => { running (image 4 0 []) f with ticked := true })
    (s.tile 0 (0 : TileId).val).ctx = .idle ∧ hasSec (activeImg (s.frame 0)) 0x0004 0 = true := by decide +kernel

def effect (f : Nat) (rw moved : Bool) : Effect := ⟨o5F_XF_LENGTH, 0, f, none, true, rw, false, [], 0, moved⟩
def effects (l : List Effect) : State := live (fun r => { r with bil := { r.bil with effects := l } }) []

theorem witness_StagedRecords :
    let s := effects [effect 3 false false]
    let u := effects [effect 0 true false]
    (nextStart (s.at 0) 0 0 = some 3 ∧ (s.realm 0).bus.keeper = true ∧ awaiting (s.at 0) 0 0 3 = false)
    ∧ ((effects [effect 0 false true]).realm 0).bil.effects.any (·.moved) = true
    ∧ (u.realm 0).bil.effects.filter (fun x => x.rw && !x.moved && decide (x.frame ≤ u.frameNo 0)) = [effect 0 true false]
    ∧ (effect 0 true false).stamped = true ∧ served u 0 = true := by
  decide +kernel

/-- The inactive bank of realm 0 in a state of 03 Table 3-9. -/
def loading (st : Nat) (i : List Byte) : State := framed (fun f => { f with stB := st, stream := i })

theorem witness_StreamWindow :
    (List.replicate 16 (0 : Byte)).length = 16 ∧ loadState (loading 1 []) 0 = 1 ∧ loadState (loading 2 []) 0 = 2
    ∧ loadState (loading 0 []) 0 = 0 ∧ (0xFFFE : BitVec 16) ≠ BitVec.allOnes 16 ∧ (List.replicate 15 (0 : Byte)).length % 16 ≠ 0 := by
  decide

/-- An image of no tile program, signed with the private key 1. -/
def signed : List Byte :=
  toBe 320 0x455a494d00038000800700000000000040010000040000000077010001000000e3b0c44298fc1c149afbf4c8996fb92427ae41e4649b934ca495991b7852b855010000000100000000000000000000000000000000000000000000000000000000000000000000000000000000000000000000000000000000000000000000000600ff00c000000000000000000000000d00ff00c000000000000000000000000e00ff00c000000040000000000000000f00ff000001000000000000000000006b17d1f2e12c4247f8bce6e563a440f277037d812deb33a0f4a13945d898c2964fe342e2fe1a7f9b8ee7eb4a7c0f9e162bce33576b315ececbb6406837bf51f56b17d1f2e12c4247f8bce6e563a440f277037d812deb33a0f4a13945d898c296367e84dd5d86cc4640e1502268b9b528cad4b7900d3da055fd64e23385e4b9a5

theorem witness_LoadEndsAndSwap_verified :
    let s := (loading 2 signed).oput 0 o12_T_ADM 1000
    loadState s 0 = 2 ∧ (imageCheck (s.frame 0).stream (runImg (s.frame 0)) (fusedHash s.hub)).or
      (admitCheck (s.frame 0).stream (s.onat 0 o12_T_ADM) (s.rate 0)) = none := by
  decide +kernel

theorem witness_LoadEndsAndSwap :
    let a := framed (fun f => { f with stB := 3, armed := some ⟨0, 1, 0⟩ })
    loadState (loading 2 []) 0 = 2 ∧ ((imageCheck [] [] none).or (admitCheck [] 1000 48000)).isSome = true
    ∧ (loadState (loading 1 []) 0 = 1 ∧ ((loading 1 []).frame 0).lastByte + sec 1 ≤ ((loading 1 []).at (sec 1)).now)
    ∧ (a.frame 0).armed = some ⟨0, 1, 0⟩ ∧ (0 : Nat) = (a.frame 0).number ∧ loadState a 0 = 3 := by
  decide +kernel

/-! ## Governor -/

def governed (f : GovSt → GovSt) (l : List (Nat × Int)) : State := live (fun r => { r with gov := f r.gov }) l

theorem witness_ReplicasAndStatus :
    let s := governed (fun g => { g with lowSince := some 0 }) [(o12_STATUS, 1)]
    ((governed id []).realm 0).mode ≠ .dormant ∧ replicaBad (governed id []) 0 63 = false
    ∧ (State.reset.realm 0).mode = .dormant
    ∧ statusBit s 0 0 = true ∧ (s.realm 0).gov.lowSince = some 0 ∧ 0 + sec 10 ≤ (s.at (sec 10)).now ∧ (s.at 0).now < 0 + sec 10 := by
  decide +kernel

theorem witness_GovernorSamples :
    let s := governed id []
    let w := (governed (fun g => { g with sweepStart := some (0, 700) }) []).modHub (fun h => { h with vout := 801 })
    (s.realm 0).mode ≠ .dormant ∧ worstOf s 0 [900] = some 900 ∧ (sweeper s).isSome = false
    ∧ tgOf 900 (s.onat 0 o12_GUARD) ≠ 0xFFFFFFFF
    ∧ (w.realm 0).mode ≠ .dormant ∧ worstOf w 0 [900] = some 900 ∧ (sweeper w).isSome = true ∧ setpoint w < w.hub.vout := by decide +kernel

theorem witness_SweepsAndRegulator :
    let s := governed id []
    let w := governed (fun g => { g with sweepStart := some (0, 700) }) []
    let h := fun v => s.modHub (fun h => { h with mode := .hub, avs := true, vout := v })
    ((s.realm 0).mode ≠ .dormant ∧ sweeper s = none ∧ sweepIsDue (s.at 0) 0 = true)
    ∧ ((w.realm 0).gov.sweepStart = some (0, 700) ∧ sweepMeasured w 0 700 [] = false
      ∧ sweepMeasured w 0 700 ((sweepPoints 700).map (fun _ => List.replicate 64 900)) = true)
    ∧ (∀ v ∈ [0, 799, 801], (h v).hub.mode = .hub ∧ (h v).hub.avs = true ∧ (h v).hub.voutAt + us 5 ≤ ((h v).at (us 5)).now
        ∧ (h v).hub.vout ≠ voutTarget ((h v).at (us 5))) := by
  decide +kernel

/-! ## Biluno operations -/

def host : Req := ⟨1000000, 0, hostSession⟩

def grants (q : Req) (o : Op) (s : State) : Bool :=
  served (s.at q.t) q.m && (match askerOf (s.at q.t) q.m q.sess with | some a => grantedTo q a o s | none => false)

theorem granted_of {q : Req} {o : Op} {s : State} (h : grants q o s = true) : Granted q o s := by
  unfold grants at h
  split at h
  · next a ha => exact ⟨by simp_all, a, ha, by simp_all⟩
  · simp at h

def call (k : Nat) (b : List Byte) (s : State) : Bool := grants host (callOp 0 k b) s
def write (page index elem : Nat) (v : List Byte) (s : State) : Bool := grants host (writeOp 0 ⟨page, index, elem⟩ v none) s
/-- Realm 0 in a mode, its Keeper running. -/
def inMode (x : RMode) : State := live (fun r => { r with mode := x }) []

theorem witness_LoaderCalls : call o14_LOAD_BEGIN [] (loading 0 []) = true ∧ call o14_LOAD_ABORT [] (loading 1 []) = true
    ∧ call o14_SWAP_CANCEL [] (loading 0 []) = true := by decide +kernel

theorem witness_LoaderCalls_swap : ∀ f ∈ [2, 16777216], f < 2 ^ 64 ∧
    call o14_SWAP (toLe 8 f) ((framed (fun f => { f with stB := 3, imgB := signed })).oput 0 o12_T_ADM 1000) = true := by
  decide +kernel

theorem witness_OutputCalls : call o1A_SAFE_ENTER [] (inMode .run) = true ∧ call o1A_SAFE_EXIT [] (inMode .safe) = true
    ∧ call o1A_POISON_CLEAR [] (inMode .run) = true ∧ (∀ k ∈ [0, 15], call (o12_OVERRUN_CLEAR + 16 * k) [] (inMode .run) = true)
    ∧ (∀ c ∈ [0, 511, 0x1000, 0x11FF], grants host ⟨6, 0, objOid 0 ⟨0x1A, 0x1000 + c, 2⟩, []⟩ (inMode .run) = true) := by
  decide +kernel

theorem witness_MemoryCalls :
    (∀ mask ∈ [1, 16, 63], call o18_MBIST_START (toLe 1 mask) (inMode .maintenance) = true)
    ∧ call o18_ERR_INJECT (toLe 1 0 ++ toLe 4 8191 ++ toLe 4 0x7FFFFF) (inMode .maintenance) = true
    ∧ call o18_COUNT_CLEAR [] (inMode .run) = true
    ∧ (∀ b ∈ [0, 59], ∀ v ∈ [0, 2], write 0x18 (0x140 + b) 6 (toLe 1 v) (inMode .run) = true) := by
  decide +kernel

/-- One segment from input 0 to output 0. -/
def lit : State := framed (running (image 12 0xFF ([0, 0, 1, 0, 0, 0, 1, 0] ++ List.replicate 8 0)))

theorem witness_RealmCalls :
    (∀ v ∈ [2, 7], call o10_MODE_REQUEST (toLe 1 v) (inMode .run) = true) ∧ call o11_COUNTERS_CLEAR [] (inMode .run) = true
    ∧ call o30_TAKE [] (live (fun r => { r with mode := .standby, frame := { r.frame with stA := 4 } }) []) = true
    ∧ call o30_TAKE [] (inMode .active) = true
    ∧ (∀ v ∈ [-1048576, 1048575], call o22_PHASE_ADJUST (wireMod 4 v) (inMode .run) = true)
    ∧ call o24_TIME_SET (toLe 6 (2 ^ 48 - 1) ++ toLe 4 999999999) (inMode .run) = true
    ∧ call (okey 0x66 1 0) (toLe 2 0 ++ toLe 2 0) lit = true := by
  decide +kernel

theorem witness_DeviceCalls :
    let s := State.reset.modHub (fun h => { h with ready := true, mode := .hub, power := { h.power with seq := 0 } })
    ∀ o ∈ [callOp 0 o02_REALM_START [], callOp 0 (o02_REALM_STOP + 48) [], callOp 0 (o02_REALM_RESET + 48) [],
        callOp 0 o02_DEV_MODE_REQUEST [17], callOp 0 o02_DEV_MODE_REQUEST [19], callOp 0 o01_KEY_HASH_BURN (List.replicate 32 1),
        callOp 0 o01_IDENTITY_PROVE (List.replicate 32 1)],
      s.hub.ready = true ∧ opErr (s.at 0) hubAsker o = none := by
  decide +kernel

theorem witness_PortAndClockWrites :
    (∀ p ∈ [0, 15], ∀ v ∈ [0, 1], write 0x20 (0x100 + p) 0 (toLe 1 v) (inMode .run) = true)
    ∧ (∀ v ∈ [0, 1], write 0x20 0 2 (toLe 1 v) (inMode .run) = true ∧ write 0x22 0x400 0 (toLe 1 v) (inMode .run) = true
        ∧ write 0x22 0x401 0 (toLe 1 v) (inMode .run) = true)
    ∧ write 0x22 0 0 [1] (inMode .bringUp) = true ∧ write 0x22 0 1 [1] (inMode .bringUp) = true
    ∧ write 0x22 0x200 0 (wireMod 4 (-1)) (inMode .run) = true
    ∧ (∀ v ∈ [0, 700], write 0x12 0xB 0 (toLe 2 v) (inMode .maintenance) = true)
    ∧ (∀ v ∈ [0, 1], write 0x30 0 0 (toLe 1 v) (inMode .bringUp) = true) := by
  decide +kernel

theorem witness_NetworkWrites :
    (∀ p ∈ [0, 1], ∀ v ∈ [0, 1], write 0x24 (0x100 + p) 0 (toLe 1 v) (inMode .run) = true)
    ∧ (∀ v ∈ [0, 1], write 0x24 0 1 (toLe 1 v) (inMode .run) = true)
    ∧ (∀ v ∈ [0, 16], write 0x24 1 14 (toLe 1 v) (inMode .run) = true)
    ∧ (∀ k ∈ [0, 63], ∀ i ∈ [0x100, 0x300], write 0x26 (i + k) 0 [0] (inMode .run) = true)
    ∧ write 0x28 0 0 (toLe 2 65535) (inMode .run) = true
    ∧ (∀ k ∈ [0, 7], write 0x28 (0x100 + k) 0 (List.replicate 32 1) (inMode .run) = true
        ∧ write 0x28 (0x100 + k) 1 [4] (inMode .run) = true) := by
  decide +kernel

/-- An object without a staged record, a staged one and a ramped one. -/
theorem witness_WritesTakeEffect :
    let policy : ObjId := ⟨0x2A, 1, 0⟩
    let freq : ObjId := ⟨0x40, 0x200, 1⟩
    let fader : ObjId := ⟨0x40, 511, 0⟩
    ((oidRow (objOid 0 policy)).map staged = some false ∧ keyPage (oidKey (objOid 0 policy)) = 0x2A
      ∧ grants host (writeOp 0 policy [1] none) (inMode .run) = true)
    ∧ ((oidRow (objOid 0 freq)).map staged = some true ∧ grants host (writeOp 0 freq (toLe 4 10000) none) (inMode .run) = true)
    ∧ ((oidRow (objOid 0 fader)).map staged = some true ∧ 2000000000 < 2 ^ 32
      ∧ grants host (writeOp 0 fader (toLe 2 0) (some 2000000000)) (inMode .run) = true)
    ∧ ∀ f ∈ [193, 16777216], f < 2 ^ 64 ∧ grants host (valueOp 3 (toLe 8 f) (objOid 0 freq) (toLe 4 10000) none) (inMode .run) = true := by
  decide +kernel

/-- Session 5 of role 4, and subscription 7 of the host. -/
def session5 : Session := ⟨5, 0, 4, true, [], 0, [], 0, 0, 0⟩
def opened (x : Realm) : Realm := { x with bil := { x.bil with sessions := [session5], subs := [⟨7, hostSession, 0, 0x10, 0, 0, 1, 0, 0, [], 0, []⟩] } }
def client (id : Nat) : Req := ⟨1000000, 0, id⟩

theorem witness_SessionCalls :
    let s := live opened [(o28_KEY_ROLE, 4)]
    let sub := fun (kind oid rate span : Nat) => (⟨4, 0, oid, toLe 1 kind ++ [0] ++ toLe 2 rate ++ toLe 2 span ++ [0, 0]⟩ : Op)
    grants (client 5) ⟨1, 0, objOid 0 ⟨0x10, 0, 0⟩, toLe 2 0 ++ toLe 2 1⟩ s = true
    ∧ grants (client 5) ⟨1, 0, objOid 0 ⟨0x11, keyIndex o11_EVENT_LOG, keyElem o11_EVENT_LOG⟩, toLe 2 0 ++ toLe 2 256⟩ s = true
    ∧ grants (client 5) (sub 0 (objOid 0 ⟨0x10, 0, 0⟩) 0 1) s = true ∧ grants (client 5) (sub 1 (objOid 0 ⟨0x10, 0, 0⟩) 100 1) s = true
    ∧ grants (client 5) (sub 2 0 0 1) s = true
    ∧ grants host ⟨5, 0, 0, toLe 2 7⟩ s = true
    ∧ ((List.replicate 16 (1 : Byte)).length = 16 ∧ (s.realm 0).bil.sessions.length < 64
      ∧ grants (client 0) ⟨7, 0, 0, toLe 1 0 ++ [0, 0, 0] ++ List.replicate 16 1⟩ s = true)
    ∧ grants (client 5) ⟨8, 0, 0, []⟩ s = true ∧ grants host ⟨8, 0, 0, []⟩ s = true
    ∧ grants (client 5) ⟨9, 0, 0, toLe 4 0 ++ List.replicate 16 1⟩ ((live opened []).modFrame 0 (fun f => { f with stB := 1 })) = true := by
  decide +kernel

/-! ## The realm bus -/

theorem witness_BusReachesMemory :
    let s := inMode .run
    let r := s.realm 0
    MasterFree s 0 0 ∧ place r 0 0x10000000 false = .mem 0x81 0 ∧ CleanVec (s.mem 0) 0x81 0
    ∧ (∀ j, j < 16 → place r 0 (beatAddr 0x10000000 j) true = .mem 0x81 j ∧ place r 0 (beatAddr 0x10000000 j) false = .mem 0x81 j
        ∧ CleanVec (s.mem 0) 0x81 j)
    ∧ place r 0 (beatAddr 0x60000000 0) true = .mem 0x80 0 ∧ atomicBank 0x80 = true ∧ atomicBank 0x40 = true := by
  unfold MasterFree CleanVec; decide +kernel

/-- Deep bank 0 is on its way to ON. -/
def coming : State := (inMode .run).modMemory 0 (fun x => { x with deep := [(0, ⟨2, some (0, 5), false⟩)] })

theorem witness_BusRegistersAndErrors :
    let s := inMode .run
    let r := s.realm 0
    let held := s.modBus 0 (fun b => { b with resetting := [(0, 1)] })
    (MasterFree s 0 0 ∧ ∀ a ∈ [0x80001000, 0x80001008, 0x80001010, 0x80001024, 0x80000000],
      place r 0 (a / 4 * 4) true = .reg a ∧ regListed r.bus a = true)
    ∧ portOpen (s.modHub (fun h => { h with ready := true })) = true
    ∧ (∀ n ∈ [0, 7], ∀ g ∈ [0, 3], controlPlace r (busMaster 0) (0x80002000 + 16 * n + 4 * g) true ≠ .error)
    ∧ (opBeats (.read 16) ≤ 16 ∧ MasterFree s 0 3 ∧ privAt s 0 3 0 (.read 16) = none
      ∧ (places r 3 0 (.read 16)).any (placeBad r.bus (.read 16)) = true)
    ∧ (s.oput 0 o2A_DECODE_POLICY 1).onat 0 o2A_DECODE_POLICY = 1 ∧ loadState (loading 1 []) 0 = 1
    ∧ (MasterFree coming 0 0 ∧ privAt coming 0 0 0x40000000 (.read 1) = none
      ∧ (places (coming.realm 0) 0 0x40000000 (.read 1)).any (placeBad r.bus (.read 1)) = false
      ∧ (places (coming.realm 0) 0 0x40000000 (.read 1)).any placeWaits = true)
    ∧ (¬MasterFree held 0 0 ∧ privAt held 0 0 0 (.read 1) = none)
    ∧ ∀ a ∈ [0x80020000, 0x80FFFFFC], privAt s 0 0 a (.read 1) = some a := by
  unfold MasterFree; decide +kernel

/-- Source 63 or 31 is pending in an enabled interrupt controller. -/
def pending (mine : BitVec 8) : State :=
  ((inMode .run).modBus 0 (fun b => { b with enable := true, pend := 2 ^ 63, mask := 0, inService := mine })).modHub
    (fun h => { h with ready := true, ienable := true, ipend := 2 ^ 31, imask := 0, inService := mine })

theorem witness_InterruptsAndWaits :
    let b := fun (s : State) => (s.realm 0).bus
    let idle := State.reset.modHub (fun h => { h with ready := true })
    ((b (pending 0xFF)).enable = true ∧ (b (pending 0xFF)).inService = 0xFF ∧ Lowest (b (pending 0xFF)).pend (b (pending 0xFF)).mask 63)
    ∧ ((b (pending 0)).inService ≠ 0xFF ∧ (b (pending 0)).enable = true ∧ Lowest (b (pending 0)).pend (b (pending 0)).mask 63)
    ∧ ((b idle).enable = false ∧ (b idle).inService = 0xFF)
    ∧ (portOpen (pending 0xFF) = true ∧ (pending 0xFF).hub.ienable = true ∧ (pending 0xFF).hub.inService = 0xFF
      ∧ Lowest (pending 0xFF).hub.ipend (pending 0xFF).hub.imask 31)
    ∧ (portOpen (pending 0) = true ∧ (pending 0).hub.inService ≠ 0xFF ∧ Lowest (pending 0).hub.ipend (pending 0).hub.imask 31)
    ∧ (portOpen idle = true ∧ idle.hub.ienable = false ∧ idle.hub.inService = 0xFF) ∧ HubQuiet idle
    ∧ (coming.realm 0).bus.waiting = [] ∧ ((coming.realm 0).deepPow 0).target = some (0, 5)
    ∧ ((coming.realm 0).deepPow 0).retain = false := by
  unfold Lowest HubQuiet; decide +kernel

def patching : State := (inMode .bringUp).modBus 0 (fun b => { b with patch := 3 })

theorem witness_KeeperStartsAndPatches :
    let s := (inMode .bringUp).modBus 0 (fun b => { b with keeper := false, keeperStart := some 0 })
    controlPlace (s.realm 0) (busMaster 3) 0x80000004 true ≠ .error
    ∧ (patching.realm 0).bus.patch = 3
    ∧ ((s.realm 0).bus.keeperStart.isSome = true ∧ (s.realm 0).bus.keeper = false)
    ∧ ((patching.realm 0).bus.keeper = true ∧ (patching.realm 0).bus.refreshed + sec 1 ≤ (patching.at (sec 1)).now) := by
  decide +kernel

/-! ## Memory passes and fades -/

def leaving (stop : Bool) : State := live (fun r => { r with trans := some ⟨.standby, stop, true, 0⟩ }) []

theorem witness_MemoryPassesAndFades :
    let s := live (fun r => { r with memory := { r.memory with clearing := some 0, initSince := some 0, startWaits := true } })
      [(o18_MBIST_STATE, 1)]
    (s.onat 0 o18_MBIST_STATE = 1 ∧ (s.realm 0).memory.clearing.isSome = true ∧ footRanges (runImg (s.frame 0)) = []
      ∧ (s.realm 0).memory.initSince.isSome = true ∧ (s.realm 0).memory.startWaits = true)
    ∧ hubUp (s.modHub (fun h => { h with mode := .hub, power := { h.power with seq := 0 } })) = true
    ∧ (s.realm 0).trans.all (fun t => !t.begun || decide ((s.at 0).now < t.since + fadePs)) = true
    ∧ (∀ b ∈ [false, true], ((leaving b).realm 0).trans = some ⟨.standby, b, true, 0⟩ ∧ 0 + fadePs ≤ ((leaving b).at fadePs).now)
    ∧ ns 50 ≤ ns 50 ∧ ns 49 < ns 50 ∧ ns 20 ≤ ns 20 ∧ ns 19 < ns 20
    ∧ (let u := live id [(o20_MUTE_PIN_STATE, 1)]
       u.onat 0 o20_MUTE_PIN_STATE = 1 ∧ (u.realm 0).out.pinRose + ns (u.onat 0 o20_MUTE_RELEASE) ≤ (u.at (sec 1)).now) := by
  decide +kernel

/-- A patch of 112 bytes for firmware version 1, in the patch buffer. -/
def patch : List Byte :=
  [0x4B, 0x50, 0x41, 0x54] ++ toLe 2 1 ++ toLe 2 0 ++ toLe 4 1 ++ toLe 4 1 ++ toLe 4 112 ++ List.replicate 12 0 ++ List.replicate 80 1
def patched : State := patching.setMem 0 (putBytes [] 0x81 0x4000 patch 7)

theorem patched_all : (keeperRead 7 patched 0 0x4000).1 = (patch, true) := by decide +kernel

/-- A patch verifies under every firmware version and root key that it is made for: here version 1, and a key under which
the signature holds. -/
theorem witness_KeeperStartsAndPatches_verified (hv : Config.fwVersion = 1)
    (hk : ecVerify Config.rootKey (sha256 (patch.take 48)) (be patch 48 32) (be patch 80 32) = true) :
    (patched.realm 0).bus.patch = 3 ∧ patchLen patch = some 112 ∧ patchSigned patch 112 = true := by
  refine ⟨by decide, ?_, hk⟩
  unfold patchLen
  simp only [hv]
  decide +kernel

/-! ## Ports and clocks -/

/-- Port 15 of realm 0 in a state of 09 Table 9-2. -/
def ported (st : Nat) (x : Port) (l : List (Nat × Int)) : State :=
  live (fun r => { r with ports := [(15, x)] }) ((o20_STATE + 16 * 15, (st : Int)) :: l)

theorem witness_PortEvents :
    let s := fun st => ported st { Port.reset with count := 2 ^ 20, valid := 2 ^ 20, invalid := 2 ^ 20 } []
    let n := fun st k => (s st).onat 0 (k + 16 * 15)
    let off := ported 2 { Port.reset with off := 2 ^ 20 } []
    let g := ported 3 { Port.reset with aligned := 2 ^ 20 } [(o20_GROUP + 16 * 15, 1), (o20_ALIGN_OUT + 16 * 15, 1)]
    let held := ported 3 Port.reset [(o20_FSYNC_POL + 16 * 15, 1)]
    let late := (ported 3 Port.reset [(o20_ROLE + 16 * 15, 0)]).modFrame 0 (fun f => { f with ticked := true })
    let lead := live id [(o20_ROLE, 2)]
    edgeMissing ((s 2).at (sec 1)) 0 15 none = true ∧ edgeMissing ((s 2).at (sec 1)) 0 15 (some (sec 1)) = false
    ∧ fsyncActive held 0 15 = false ∧ fsyncActive (s 3) 0 15 = true
    ∧ masterLate (s 3) 0 15 = false ∧ masterLate late 0 15 = true
    ∧ lead.onat 0 (o20_ROLE + 16 * 0) = 2 ∧ (s 3).onat 0 (o20_ROLE + 16 * 15) ≠ 2
    ∧ 256 ≤ ((ported 6 { Port.reset with rateFrames := 256 } []).port 0 15).rateFrames
    ∧ isMaster late 0 15 = true ∧ isMaster lead 0 0 = false
    ∧ (15 < 16 ∧ ∀ st ∈ [1, 2, 3, 4, 5, 6], portState (s st) 0 15 = st)
    ∧ ((s 1).port 0 15).stop = false ∧ n 1 o20_START_FRAMES ≤ 2 ^ 20 ∧ n 2 o20_REQUAL_FRAMES ≤ 2 ^ 20
    ∧ ((off.port 0 15).valid < off.onat 0 (o20_REQUAL_FRAMES + 16 * 15) ∧ off.onat 0 (o20_REQUAL_FRAMES + 16 * 15) ≤ (off.port 0 15).off)
    ∧ 32 + n 4 o20_STOP_FRAMES ≤ 2 ^ 20 ∧ n 3 o20_INVALID_LIMIT ≤ 2 ^ 20 ∧ telemetry (s 6) 0 = true ∧ 2 ^ 32 - 1 < 2 ^ 32
    ∧ g.onat 0 (o20_GROUP + 16 * 15) ≠ 0 ∧ g.onat 0 (o20_ALIGN_OUT + 16 * 15) = 1 ∧ g.onat 0 o20_REJOIN_FRAMES ≤ (g.port 0 15).aligned := by
  decide +kernel

def clocked (st : Nat) (f : ClockSt → ClockSt) (l : List (Nat × Int)) : State :=
  live (fun r => { r with clock := f r.clock }) ((o22_PLL_STATE, (st : Int)) :: l)

theorem witness_LockAndRelock :
    let s := fun st => clocked st (fun c => { c with good := 2 ^ 20, fails := 7, glide := 7 }) []
    let few := fun st => clocked st (fun c => { c with fails := 6, glide := 6 }) []
    let u := (s 1).at (sec 1)
    let dist := fun n : Nat => ((n : Int) - (20 * u.onat 0 o22_LOCK_WINDOW : Nat)).natAbs
    let n := 20 * u.onat 0 o22_LOCK_WINDOW
    ((s 1).realm 0).xo = true
    ∧ (((s 1).modRealm 0 (fun r => { r with xo := false })).realm 0).xo = false
    ∧ (∀ st ∈ [1, 2, 3, 4, 5], pllState (s st) 0 = st ∧ pllState (few st) 0 = st)
    ∧ (dist n ≤ u.onat 0 o22_LOCK_TOL ∧ u.onat 0 o22_LOCK_WINDOWS ≤ 2 ^ 20 + 1) ∧ (0 + 1 < u.onat 0 o22_LOCK_WINDOWS)
    ∧ u.onat 0 o22_UNLOCK_TOL < dist 0 ∧ dist (n - u.onat 0 o22_UNLOCK_TOL) ≤ u.onat 0 o22_UNLOCK_TOL
    ∧ (u.realm 0).clock.glideAt + ns (u.onat 0 o22_GLIDE_INTERVAL) ≤ u.now ∧ (few 2).clock 0 ≠ u.clock 0
    ∧ ((few 2).clock 0).glide < 7 ∧ 7 ≤ ((s 2).clock 0).glide ∧ (u.clock 0).settleAt + ns (u.onat 0 o22_RELOCK_SETTLE) ≤ u.now
    ∧ (u.clock 0).acqStart + ms 100 ≤ u.now ∧ ((few 1).clock 0).fails + 1 < 8 ∧ 8 ≤ (u.clock 0).fails + 1
    ∧ (clocked 4 id [(o22_PPS_OUT_MODE, 1)]).onat 0 o22_PPS_OUT_MODE = 1
    ∧ (let x : Int := ((s 1).at 0).tbNs 0 - u.oget 0 o22_PPS_OFFSET; x = 0 ∧ -2 ≤ x - 0 * 10 ^ 9 ∧ x - 0 * 10 ^ 9 ≤ 2)
    ∧ (let x : Int := ((s 1).at (ms 500)).tbNs 0 - u.oget 0 o22_PPS_OFFSET; 2 < x - 0 * 10 ^ 9 ∧ x - 1 * 10 ^ 9 < -2)
    ∧ (let t := clocked 4 id [(o22_PPS_OUT_MODE, 2), (o24_TB_STATE, 2)]
       t.onat 0 o22_PPS_OUT_MODE = 2 ∧ candSignal t 0 0 = true)
    ∧ (clocked 4 id [(o22_PPS_OUT_MODE, 2)]).onat 0 o22_PPS_OUT_MODE = 2 ∧ candSignal (clocked 4 id []) 0 0 = false := by
  decide +kernel

theorem witness_ReferenceCandidates :
    let cand := fun (st : Int) => clocked 4 (fun c => { c with cands := [(1, { Cand.reset with signal := true })], lockSince := some 0 })
      [(o22_CAND_STATE + 16, st), (o22_SELECTED, 1), (o22_REF_STATE, 1)]
    let p := pulsePs (cand 3) 0 1
    let s := (cand 2).at (sec 4000)
    ((cand 3).realm 0).mode ≠ .dormant ∧ p < 100 * (((0 : Nat) : Int) - p).natAbs ∧ ¬(p < 100 * ((p : Int) - p).natAbs)
    ∧ (selected (cand 3) 0 = 1 ∧ candState (cand 3) 0 1 = 3 ∧ pllState (cand 3) 0 = 4)
    ∧ candState (cand 2) 0 1 ≠ 3 ∧ (∀ c ∈ [0, 3, 4], candSignal (cand 3) 0 c = false)
    ∧ (let l := (cand 3).modClock 0 (fun c => { c with cands := [(1, { Cand.reset with signal := true, last := some 0 })] })
       edgesStopped (l.at 0) 0 1 = false ∧ edgesStopped (l.at (sec 1)) 0 1 = true ∧ edgesStopped ((cand 3).at 0) 0 2 = true)
    ∧ (let f := fun lam => (clocked 4 id [(o22_SELECTED, 3), (o22_CAND_STATE + 48, 3), (o20_ROLE, 2), (o20_STATE, 3)]).modPort 0 0
         (fun x => { x with lam := lam })
       selected (f none) 0 = 3 ∧ candState (f none) 0 3 = 3 ∧ pllState (f none) 0 = 4 ∧ ((f none).cand 0 3).glitch = 0
         ∧ ((f none).port 0 0).lam = none ∧ ((f (some 5)).port 0 0).lam = some 5)
    ∧ (candState s 0 1 = 2 ∧ candSignal s 0 1 = true ∧ (s.cand 0 1).since + ms (s.onat 0 o22_QUAL_TIME) ≤ s.now
      ∧ (candOff s 0 1).natAbs ≤ s.onat 0 o22_PULL_RANGE)
    ∧ ([0, 5] : List Int)[1]? = some 5
    ∧ (selected s 0 ≠ 0xFF ∧ s.onat 0 o22_REF_STATE = 1 ∧ (s.clock 0).lockSince = some 0 ∧ 0 + sec 1 ≤ s.now) := by
  decide +kernel

/-! ## Network -/

/-- Realm 0 with MAC address 2, IPv4 address 10.0.0.1 and its link up on port 0. -/
def net (f : NetSt → NetSt) (l : List (Nat × Int)) : State :=
  live (fun r => { r with
    net := f r.net,
    objs := [(o24_MAC_ADDRESS, 2), (o24_IP_ADDRESS, 0x0A000001), (o24_LINK_STATE, 1)] ++ l }) []
def online : State := net id []

/-- A frame of 60 octets or more, with its FCS; an IPv4 packet from 10.0.0.2; a UDP datagram without a checksum. -/
def ether (dst ty : Nat) (b : List Byte) : List Byte :=
  let f := toBe 6 dst ++ toBe 6 1 ++ toBe 2 ty ++ b ++ List.replicate (46 - b.length) 0
  f ++ toLe 4 (fcs32 f)
def packet (proto dst : Nat) (b : List Byte) : List Byte :=
  let h := fun c => [0x45, 0] ++ toBe 2 (20 + b.length) ++ [0, 0, 0, 0, 64, BitVec.ofNat 8 proto] ++ toBe 2 c ++ toBe 4 0x0A000002 ++ toBe 4 dst
  h (ipCheck (h 0)) ++ b
def udp (dport : Nat) (b : List Byte) : List Byte :=
  ether 2 0x0800 (packet 17 0x0A000001 (toBe 2 5000 ++ toBe 2 dport ++ toBe 2 (8 + b.length) ++ [0, 0] ++ b))
def arp (op : Nat) : List Byte :=
  ether 2 0x0806 (toBe 6 0x000108000604 ++ toBe 2 op ++ toBe 6 1 ++ toBe 4 0x0A000002 ++ toBe 6 2 ++ toBe 4 0x0A000001)
def echo : List Byte := ether 2 0x0800 (packet 1 0x0A000001 ([8, 0] ++ toBe 2 (ipCheck (8 :: List.replicate 7 0)) ++ [0, 0, 0, 0]))

/-- The FCS holds and the port accepts the frame. -/
def taken (f : List Byte) : Prop := le f (f.length - 4) 4 = fcs32 (f.take (f.length - 4)) ∧ frameOk online 0 0 f = some 12

theorem witness_NetworkFrames_received :
    online.onat 0 o24_LINK_STATE = 1 ∧ fcs32 (List.replicate 60 0) ≠ 0 ∧ le (List.replicate 64 0) 60 4 = 0
    ∧ (le (ether 3 0x0800 []) 60 4 = fcs32 ((ether 3 0x0800 []).take 60) ∧ frameOk online 0 0 (ether 3 0x0800 []) = none)
    ∧ (taken (arp 1) ∧ be (arp 1) 12 2 = 0x0806) ∧ taken echo
    ∧ (let i := fun f => ipPacket f 12
       ipOk online 0 0 (i (ether 2 0x0800 [])) = false ∧ taken (ether 2 0x0800 []) ∧ be (ether 2 0x0800 []) 12 2 ≠ 0x0806
       ∧ (ipOk online 0 0 (i echo) = true ∧ byteAt (i echo) 9 = 1 ∧ byteAt (i echo) 20 = 8 ∧ (i echo).length ≤ 1500)
       ∧ (let f := ether 2 0x0800 (packet 6 0x0A000001 []); taken f ∧ ipOk online 0 0 (i f) = true ∧ byteAt (i f) 9 = 6)
       ∧ (∀ port ∈ [319, 320], ∀ ty ∈ [0, 0xC], let f := udp port (ty :: List.replicate 43 0)
          taken f ∧ ipOk online 0 0 (i f) = true ∧ be ((i f).drop 20) 2 2 = port ∧ byteAt ((i f).drop 20) 8 % 16 = ty.toNat
            ∧ 42 ≤ ((i f).drop 20).length)
       ∧ (let f := udp 5004 []; taken f ∧ ipOk online 0 0 (i f) = true ∧ be ((i f).drop 20) 2 2 = 5004
          ∧ streams.filter (rxBelongs online 0 0 (be (i f) 16 4) (be (i f) 12 4) 5004) = []
          ∧ (let s := net id [(o26_ENABLE + 16 * 63, 1), (o26_GROUP_A + 16 * 63, 0xEF000001), (o26_UDP_PORT + 16 * 63, 5004)]
             streams.filter (rxBelongs s 0 0 (be (i f) 16 4) (be (i f) 12 4) 5004) = [63]))) := by
  unfold taken; decide +kernel

theorem witness_NetworkFrames :
    let s := net (fun n => { n with ports := [(0, { NetPort.reset with asking := [0x0A000002], arp := [⟨5, 1, 0⟩],
                                                                       media := [⟨63, 5, 0, 0, List.replicate 13 1⟩] })] }) []
    let a := fun op => ((arp op).drop 14).take 28
    let d := (inMode .run).oput 0 o24_LINK_ENABLE 1
    let two := (net (fun n => { n with ptp := { n.ptp with port := 0 } }) [(o24_PTP_PORT, 2), (o24_LINK_STATE + 16, 1)])
    let query := fun n => ether 2 0x0800 (packet 2 0xE0000001 (let b := fun c => [0x11, 0] ++ toBe 2 c ++ List.replicate (n - 4) 0
      b (ipCheck (b 0))))
    let body := fun n => (ipPacket (query n) ((etherOff s 0 0 (query n)).getD 12)).drop 20
    (two.onat 0 o24_PTP_PORT = 2 ∧ (two.ptp 0).port = 0 ∧ two.onat 0 (o24_LINK_STATE + 16) = 1 ∧ (net id [(o24_PTP_PORT, 0)]).onat 0 o24_PTP_PORT ≠ 2)
    ∧ (∀ n ∈ [8, 12], byteAt (body n) 0 = 0x11 ∧ (body n).length = n ∧ ipCheck (body n) = 0) ∧ be (body 12) 4 4 = 0
    ∧ igmpVersion (s.at 0) 0 0 = 3 ∧ byteAt ((ipPacket echo ((etherOff s 0 0 echo).getD 12)).drop 20) 0 ≠ 0x11
    ∧ linkOpen s 0 0 = true ∧ linkOpen (inMode .run) 0 0 = false ∧ (d.realm 0).sdref = true
    ∧ (d.oput 0 (o24_LINK_ENABLE + 16) 0).onat 0 (o24_LINK_ENABLE + 16) ≠ 1
    ∧ (0 < 2 ∧ d.onat 0 o24_LINK_ENABLE = 1 ∧ d.onat 0 o24_LINK_STATE = 0 ∧ (d.realm 0).mode ≠ .dormant)
    ∧ online.onat 0 o24_LINK_STATE = 1 ∧ (net id []).onat 0 o24_LINK_STATE ≠ 2 ∧ (d.oput 0 o24_LINK_STATE 2).onat 0 o24_LINK_STATE = 2
    ∧ telemetry s 0 = true
    ∧ (be (a 1) 0 6 = 0x000108000604 ∧ be (a 1) 6 2 = 1 ∧ be (a 1) 24 4 = ipAddr s 0 0 ∧ ipAddr s 0 0 ≠ 0)
    ∧ (be (a 2) 6 2 = 2 ∧ (s.nport 0 0).asking.contains (be (a 2) 14 4) = true)
    ∧ (s.nport 0 0).arp.any (fun a => a.ip == 5 && decide (a.made + sec 300 ≤ (s.at (sec 300)).now)) = true
    ∧ (let c := (ipPacket echo 12).drop 20
       byteAt c 0 = 8 ∧ byteAt c 1 = 0 ∧ ipCheck c = 0 ∧ c.length ≤ 1480 ∧ (s.nport 0 0).icmpNum < 100)
    ∧ (s.nport 0 0).media = [⟨63, 5, 0, 0, List.replicate 13 1⟩] ∧ realmDrives (s.realm 0) = true
    ∧ realmDrives ((inMode .takeover).realm 0) = false := by
  decide +kernel

/-- A PTP message of port 9 × 2^16 + 1 with a sequence number, a flag octet and a body. -/
def ptpFrame (ty flags seq : Nat) (b : List Byte) : List Byte :=
  udp 319 ([BitVec.ofNat 8 ty, 2] ++ toBe 2 (34 + b.length) ++ [0, 0, BitVec.ofNat 8 flags] ++ List.replicate 13 0 ++ toBe 10 (9 * 65536 + 1)
    ++ toBe 2 seq ++ [0, 0] ++ b)
def gm9 : PtpData := ⟨1, 6, 0, 0, 1, 9, 0, 9 * 65536 + 1⟩
/-- PTP runs on port 0 with a selected master. -/
def ptpOn (f : PtpSt → PtpSt) (l : List (Nat × Int)) : State :=
  net (fun n => { n with ptp := f { n.ptp with master := some gm9 } }) ((o24_PTP_ENABLE, 1) :: l)

theorem witness_TimeMessages_events :
    let s := ptpOn (fun x => { x with sync := some (0, 5, 0), delayReq := some (7, 3), pdelayReq := some (7, 3) }) []
    let p := ptpOn (fun x => { x with pdelayReq := some (7, 3) }) [(o24_DELAY_MECH, 1), (o24_TB_STATE, 4)]
    let gm := ptpOn id [(o24_TB_STATE, 4)]
    let resp := fun ty => ptpFrame ty 0 7 (List.replicate 10 0 ++ toBe 10 (portId s 0))
    let sync := ptpFrame 0 0 7 (List.replicate 10 0)
    (∀ f ∈ [sync, ptpFrame 0 2 7 (List.replicate 10 0), resp 9, resp 3], ptpOurs s 0 (ptpMsg s 0 0 f) = true)
    ∧ ((s.ptp 0).port = 0 ∧ (s.nport 0 0).queue.find? (fun q => q.2 == sync) = none ∧ Stamped (s.at 0) 0 ((s.tbNs 0 : Int) * 65536))
    ∧ (ptpType (ptpMsg s 0 0 sync) = 0 ∧ masterSrc s 0 = some (ptpSrc (ptpMsg s 0 0 sync)) ∧ twoStep (ptpMsg s 0 0 sync) = false)
    ∧ twoStep (ptpMsg s 0 0 (ptpFrame 0 2 7 (List.replicate 10 0))) = true
    ∧ (ptpType (ptpMsg s 0 0 (resp 9)) = 9 ∧ s.onat 0 o24_DELAY_MECH = 0 ∧ 54 ≤ (ptpMsg s 0 0 (resp 9)).length
      ∧ ptpSeq (ptpMsg s 0 0 (resp 9)) = 7 ∧ be (ptpMsg s 0 0 (resp 9)) 44 10 = portId s 0)
    ∧ (ptpType (ptpMsg p 0 0 (resp 3)) = 3 ∧ p.onat 0 o24_DELAY_MECH = 1 ∧ (p.ptp 0).pdelayReq = some (7, 3)
      ∧ twoStep (ptpMsg p 0 0 (resp 3)) = false)
    ∧ ptpType (ptpMsg p 0 0 (resp 2)) = 2 ∧ (ptpType (ptpMsg gm 0 0 (resp 1)) = 1 ∧ gm.onat 0 o24_DELAY_MECH = 0 ∧ tbState gm 0 = 4) := by
  refine ⟨by decide +kernel, ⟨by decide +kernel, by decide +kernel, 0, by decide, by decide, by decide +kernel⟩, ?_⟩
  decide +kernel

theorem witness_TimeMessages :
    let s := ptpOn id [(o24_PTP_PORT, 0)]
    let f := ptpFrame 0xB 0 7 (List.replicate 30 0)
    let two := ptpOn (fun x => { x with foreign := [⟨1, gm9, [0, 0]⟩] }) [(o24_PTP_PORT, 2)]
    let y := two.modPtp 0 (fun z => { z with foreign := z.foreign.filter (fun f => f.port != 0) })
    let bare := net id [(o24_PTP_ENABLE, 1)]
    (ptpOurs s 0 (ptpMsg s 0 0 f) = true ∧ ptpType (ptpMsg s 0 0 f) = 0xB ∧ 64 ≤ (ptpMsg s 0 0 f).length
      ∧ be (ptpMsg s 0 0 f) 61 2 < 255 ∧ evaluates s 0 0 = true)
    ∧ (heard (s.at (sec 1)) 0 0 = false ∧ s.onat 0 o24_PTP_ENABLE ≠ 0 ∧ (s.ptp 0).port = 0 ∧ s.onat 0 o24_PTP_PORT ≠ 2)
    ∧ (heard (two.at (sec 1)) 0 0 = false ∧ (two.ptp 0).port = 0 ∧ two.onat 0 o24_PTP_PORT = 2 ∧ (bestOn y 0 1).isSome = true)
    ∧ (linkOpen s 0 (s.ptp 0).port = true ∧ tbState s 0 ≠ 4 ∧ (s.ptp 0).master.isSome = true
      ∧ s.onat 0 o24_DELAY_MECH = 0)
    ∧ tbState (ptpOn id [(o24_TB_STATE, 4)]) 0 = 4 ∧ (ptpOn id [(o24_DELAY_MECH, 1)]).onat 0 o24_DELAY_MECH = 1
    ∧ (s.net 0).ppsIn.all (fun t => decide (t + ms 500 ≤ (s.at (sec 1)).now)) = true
    ∧ ((net (fun n => { n with ppsIn := some 0 }) []).net 0).ppsIn.all (fun t => decide (t + ms 500 ≤ (bare.at 0).now)) = false := by
  decide +kernel

/-! ## Messages, mailboxes, notifications -/

def readMode : Op := ⟨1, 0, objOid 0 ⟨0x10, 0, 0⟩, [0, 0, 1, 0]⟩
/-- A READ of session 5 or 9 with its SEQUENCE, tagged with the empty key or not. -/
def ask (sess seq : Nat) (tagged : Bool) : List Byte := message 0 sess seq [readMode] (if tagged then some [] else none)

theorem witness_MessageEvents_refused :
    let s := live opened []
    let ok := fun d => d.take 2 = magic ∧ (header d).reply = false
    let answer := message 1 5 1 [readMode] none
    let cut := (ask 5 1 true).take 20
    served s 0 = true ∧ origPort 0 < 2 ∧ ([] : List Byte).take 2 ≠ magic
    ∧ ((header answer).reply = true ∧ (header answer).notify = false)
    ∧ (ok ((ask 5 1 true).set 2 9) ∧ checkOuter ((ask 5 1 true).set 2 9) (ask 5 1 true).length 1472 = some (2, 0))
    ∧ (ok cut ∧ checkOuter cut cut.length 1472 = some (1, 20))
    ∧ (ok ((ask 5 1 true).set 24 9) ∧ checkOuter ((ask 5 1 true).set 24 9) (ask 5 1 true).length 1472 = some (3, 0))
    ∧ (∀ d ∈ [ask 9 1 true, ask 5 1 true, ask 5 1 false], ok d ∧ checkOuter d d.length 1472 = none ∧ (header d).sess ≠ 0)
    ∧ (s.session 0 9 = none ∧ s.session 0 5 = some session5 ∧ (header (ask 5 1 false)).tagged ≠ session5.tagged)
    ∧ (let d := (ask 5 1 true).set 47 (~~~((ask 5 1 true).getD 47 0))
       ok d ∧ checkOuter d d.length 1472 = none ∧ (header d).tagged = true ∧ tagOk d session5.sk = false) := by
  decide +kernel

theorem witness_MessageEvents :
    let s := live (fun r => { r with bil := { r.bil with sessions := [{ session5 with high := 3, replies := [(2, [7])] }] } }) []
    let d := ask 5 4 true
    (served s 0 = true ∧ tagOk d [] = true ∧ tagOk (ask 5 2 true) [] = true ∧ tagOk (ask 5 3 true) [] = true)
    ∧ ([(2, [7])] : List (Nat × List Byte)).find? (fun y => y.1 == (header (ask 5 2 true)).seq) = some (2, [7])
    ∧ (([(2, [7])] : List (Nat × List Byte)).find? (fun y => y.1 == (header (ask 5 3 true)).seq) = none ∧ (header (ask 5 3 true)).seq ≤ 3)
    ∧ (3 < (header d).seq ∧ checkInner d 64 = none ∧ (askerOf s 0 5).isSome = true)
    ∧ (let d := message 0 5 4 [⟨1, 0, objOid 0 ⟨0x10, 0, 0⟩, []⟩] (some []); tagOk d [] = true ∧ checkInner d 64 = some (1, 0)) := by
  decide +kernel

def role2 : Beacon := ⟨2, 4, 0, 0, 1, 0, 0, 0, 0, 0⟩
/-- A FADER write waits for the partner, since 0; the partner has been heard or not. -/
def forwarding (sess : Nat) (heard : Bool) : State :=
  live (fun r => { r with
    pair := { r.pair with heard := if heard then some (0, role2) else none },
    bil := { r.bil with sessions := [session5],
                        fwds := [⟨⟨sess, 1, none, 0, false⟩, [writeOp 0 ⟨0x40, 0, 0⟩ (toLe 2 0) none], 9, 0⟩] } }) []

theorem witness_MessageEvents_forward :
    let s := forwarding 5 true
    let ack := opBytes (ackOp 0 0)
    let busy := opBytes (busyOp 0 1)
    served s 0 = true ∧ (s.realm 0).bil.fwds.length = 1 ∧ forwardOp (writeOp 0 ⟨0x40, 0, 0⟩ (toLe 2 0) none) = true
    ∧ parseOps ack ack.length 1 0 = ([ackOp 0 0], none) ∧ parseOps busy busy.length 1 0 = ([busyOp 0 1], none)
    ∧ askerOf (forwarding 9 true) 0 9 = none ∧ 0 + us 400 ≤ (s.at (us 400)).now ∧ ¬(0 + us 400 ≤ (s.at (us 399)).now)
    ∧ partnerRole (s.at 0) 0 = some 2 ∧ partnerRole ((forwarding 5 false).at 0) 0 ≠ some 2 := by
  decide +kernel

def subscribed (u : Sub) : State := live (fun r => { r with bil := { r.bil with subs := [u], hostQ := [⟨0, false, []⟩] } }) []
def sub7 (kind sess : Nat) (q : List EventRec) : Sub := ⟨7, sess, kind, 0x10, 0, 0, 1, 10, 10, [], 0, q⟩

theorem witness_Notifications :
    let c := live (fun r => { r with bil := { r.bil with subs := [sub7 0 hostSession []] } }) []
    let vals := subVals (c.at (sec 1)) 0 (sub7 0 hostSession [])
    let e := subscribed (sub7 2 hostSession [⟨0x1401, false, 0, 0, 0, 0⟩, ⟨0x1402, true, 0, 0, 0, 0⟩])
    served c 0 = true
    ∧ (subOf c 0 7 = some (sub7 0 hostSession []) ∧ c.onat 0 o28_SHED_LEVEL < 3 ∧ 0 + ms 10 ≤ (c.at (ms 10)).now ∧ (c.realm 0).bil.hostQ = []
      ∧ vals ≠ [] ∧ vals.all (fun v => v != []) = true)
    ∧ (0 + sec 1 / (sub7 1 hostSession []).cur ≤ (c.at (ms 100)).now ∧ subKeys (sub7 1 hostSession []) ≠ [])
    ∧ (subOf e 0 7).isSome = true ∧ nextRecord (sub7 2 hostSession [⟨0x1401, false, 0, 0, 0, 0⟩, ⟨0x1402, true, 0, 0, 0, 0⟩]).queue
        = some ⟨0x1402, true, 0, 0, 0, 0⟩
    ∧ nextRecord [(⟨0x1401, false, 0, 0, 0, 0⟩ : EventRec)] = some ⟨0x1401, false, 0, 0, 0, 0⟩
    ∧ e.session 0 hostSession = none
    ∧ ((e.realm 0).bil.hostQ = [⟨0, false, []⟩] ∧ (e.modHub (fun h => { h with ready := true })).hub.ready = true
      ∧ (boxOf e.hub 3).state = 0) := by
  decide +kernel

/-- The host's notification of one operation fits. -/
theorem witness_Notifications_fits (s : State) : fitsOne s 0 (sub7 0 hostSession []) [⟨0x84, 0, 0, [1]⟩] := by
  unfold fitsOne
  simp [sub7]

def boxed (n : Nat) (b : Mailbox) : State :=
  (live id []).modHub (fun h => { h with ready := true, boxes := [(n, b)] })
/-- A mailbox that is PENDING with a message. -/
def asks (d : List Byte) : Mailbox := { Mailbox.empty with state := 1, buffer := d }

theorem witness_MailboxesAreServed :
    let x := fun d => boxMessage (asks d)
    let good := ask hostSession 1 false
    let wrong := message 0 hostSession 1 [⟨1, 0, objOid 0 ⟨0x10, 0, 0⟩, []⟩] none
    (0 < 16 ∧ (boxOf (boxed 0 (asks good)).hub 0).state = 1 ∧ served (boxed 0 (asks good)) (boxRealm 0) = true
      ∧ (boxOf (boxed 0 (asks good)).hub 0).taken = none)
    ∧ ((boxed 16 (asks good)).hub.ready = true ∧ (boxOf (boxed 16 (asks good)).hub 16).state = 1
      ∧ (boxOf (boxed 16 (asks good)).hub 16).taken = none)
    ∧ (x []).1.take 2 ≠ magic
    ∧ (∀ d ∈ [good, ask 5 1 false, wrong, good.set 2 9], (x d).1.take 2 = magic ∧ (header (x d).1).reply = false)
    ∧ (checkOuter (x (good.set 2 9)).1 (x (good.set 2 9)).2 1024 = some (2, 0))
    ∧ (∀ d ∈ [good, ask 5 1 false, wrong], checkOuter (x d).1 (x d).2 1024 = none)
    ∧ (header (x (ask 5 1 false)).1).sess ≠ hostSession
    ∧ ((header (x good).1).sess = hostSession ∧ (header (x good).1).tagged = false ∧ checkInner (x good).1 62 = none)
    ∧ checkInner (x wrong).1 62 = some (1, 0) := by
  decide +kernel

/-! ## The host port -/

def ported2 : State := (live id []).modHub (fun h => { h with ready := true })

theorem witness_HostPortCommands :
    let s := ported2
    portOpen State.reset = false ∧ portOpen s = true ∧ (HubQuiet s ∧ s.hub.posted = []) ∧ s.hub.octalNext = false
    ∧ ((0x0B : BitVec 16).toNat % 256 = 0x0B ∧ ctlOk 0 = true ∧ ctlOk 4095 = true) ∧ ctlOk 0x100000 = false
    ∧ (alignOk 0x10000008 (0x2000 + 15) = false ∧ ctlOk (0x2000 + 15) = true ∧ alignOk 0x10000000 15 = true)
    ∧ ((regionOf 0x1000).1 = .reserved ∧ (regionOf 0xFFFFFFFF).1 = .reserved)
    ∧ (∀ m : RealmId, (regionOf ((m.val + 1) * 0x10000000)).1 = .aper m)
    ∧ ((s.realm 1).mode = .dormant ∧ (s.realm 0).mode ≠ .dormant)
    ∧ (ctlMode 3 = 0 ∧ 0xFFC + 4 ≤ 0x1000 ∧ ∀ i, i < 4 → (0xFFC + i) / 4 * 4 ≠ 0x8C)
    ∧ (let k := 0xF0000000 + 0x12000000 % 0x10000000
       MasterFree s 0 3 ∧ place (s.realm 0) 3 (beatAddr k 0) false = .mem 0x80 0 ∧ CleanVec (s.mem 0) 0x80 0)
    ∧ 2 ≤ [1, 1].length + 0 ∧ (∀ n ∈ [0, 16], ¬(n < 16 ∧ n % 4 = 3)) ∧ (3 < 16 ∧ 3 % 4 = 3)
    ∧ (∀ st ∈ [0, 1, 2, 3], (boxOf (boxed 0 { Mailbox.empty with state := st }).hub 0).state = st)
    ∧ boxServed s 0 = true ∧ boxServed s 4 = false ∧ 0x400 - 1 < 0x400 ∧ 1 + 0x3FF ≤ 0x400 := by
  unfold MasterFree CleanVec HubQuiet; decide +kernel

def burst : Burst := ⟨false, 0, true, [⟨0xF2000000, 16, List.replicate 16 1⟩], [], 16, 16, 0, false, false, 0, false⟩

theorem witness_HubRunsAndResets :
    let s := ported2.modHub (fun h => { h with posted := [burst] })
    let d := ported2.modHub (fun h => { h with drain := some burst })
    (HubQuiet s ∧ s.hub.posted = burst :: [] ∧ burst.realm ≠ 1)
    ∧ (burst.realm = 0 ∧ burst.write = true ∧ burst.txs = [⟨0xF2000000, 16, List.replicate 16 1⟩] ∧ 0xF2000000 % 16 = 0 ∧ burst.issued = false
      ∧ burst.code = 0 ∧ burst.short = false ∧ burst.poison = false ∧ (s.realm 0).mode ≠ .dormant ∧ MasterFree s 0 3
      ∧ place (s.realm 0) 3 (beatAddr 0xF2000000 0) true = .mem 0x80 0)
    ∧ (State.reset.realm 0).mode = .dormant
    ∧ (d.hub.drain = some burst ∧ d.hub.read = none ∧ d.hub.bells = [] ∧ d.hub.posted = [] ∧ burst.status = false
      ∧ burst.since + ms 2 ≤ (d.at (ms 2)).now ∧ (d.at (ms 2 - 1)).now < burst.since + ms 2)
    ∧ d.hub.ready = true ∧ State.reset.hub.ready = false
    ∧ (let r := { burst with write := false }
       let x := ported2.modHub (fun h => { h with read := some r, drain := some { burst with realm := 1 } })
       x.hub.read = some r ∧ r.status = false ∧ r.realm = 0 ∧ r.since + ms 2 ≤ (x.at (ms 2)).now
         ∧ x.hub.drain = some { burst with realm := 1 } ∧ (1 : RealmId) ≠ 0)
    ∧ (let h := (d.modHub (fun h => { h with mode := .hub, power := { h.power with seq := 0 } })).hub; h.mode = .hub ∧ h.power.seq = 0)
    ∧ State.reset.hub.power.seq ≠ 0 := by
  unfold MasterFree HubQuiet; decide +kernel

/-! ## Power -/

def powered (mode : DMode) (f : Power → Power) : State :=
  State.reset.modHub (fun h => { h with mode := mode, power := f { h.power with seq := 0, en := 4, good := [0, 1, 2, 3, 4, 5, 6] },
                                        objs := [(o03_WAKE_ENABLE, 127)] })

theorem witness_PowerSequences :
    let p := fun (f : Power → Power) => powered .hub f
    let step := p (fun p => { p with seq := 2, leave := 2 })
    let up := p (fun p => { p with seq := 1, en := 3, good := [0, 1, 2, 3, 4] })
    let rise := p (fun p => { p with seq := 1, good := [0, 1, 2, 3, 4, 5] })
    (∀ src ∈ [0, 4, 5, 6], (p id).hub.mode ≠ .off ∧ wakeEnabled (p id) src = true) ∧ wakeEnabled ((p id).modHub (fun h => { h with objs := [(o03_WAKE_ENABLE, 0)] })) 0 = false
    ∧ ((p id).hub.power.seq ≠ 2 ∧ (p id).hub.power.request = none ∧ (powered .quiet id).hub.mode ≠ .hub ∧ up.hub.power.seq = 1)
    ∧ ((p (fun p => { p with timer := some (0, 5) })).hub.power.timer = some (0, 5) ∧ 0 + 5 ≤ ((p id).at 5).now ∧ ((p id).at 4).now < 0 + 5)
    ∧ (let x := p (fun p => { p with fell := some 0, faulted := true })
       x.hub.power.fell = some 0 ∧ x.hub.power.faulted = true ∧ 0 + ms 100 ≤ (x.at (ms 100)).now)
    ∧ (let x := p (fun p => { p with request := some (2, 0) })
       x.hub.power.request = some (2, 0) ∧ x.hub.power.seq = 0 ∧ 0 + ms 1 ≤ (x.at (ms 1)).now ∧ (∀ m, (x.realm m).mode = .dormant)
         ∧ 2 + 1 < x.hub.power.en)
    ∧ (∃ m, ((inMode .run).realm m).mode ≠ .dormant)
    ∧ (step.hub.power.seq = 2 ∧ step.hub.power.leave + 1 < step.hub.power.en ∧ step.hub.power.stepAt + ms 1 ≤ (step.at (ms 1)).now)
    ∧ (p (fun p => { p with seq := 2, leave := 2, en := 3 })).hub.power.en = 2 + 1
    ∧ (p id).hub.power.good.contains 6 = true ∧ 4 ≤ railOutput 7
    ∧ (railOutput 6 < rise.hub.power.en ∧ rise.hub.power.good.contains 6 = false
      ∧ railsGood { rise.hub.power with good := 6 :: rise.hub.power.good } 4 = true)
    ∧ (railOutput 5 = 3 ∧ railsGood { rise.hub.power with good := [5, 0, 1] } 4 = false)
    ∧ (railsGood { up.hub.power with good := 4 :: [0, 1, 2, 3] } 3 = true ∧ up.hub.power.en ≠ 4)
    ∧ (0 < up.hub.power.en ∧ up.hub.power.en < 4 ∧ railsGood up.hub.power up.hub.power.en = true
      ∧ up.hub.power.stepAt + us 100 ≤ (up.at (us 100)).now)
    ∧ railsGood rise.hub.power rise.hub.power.en = false
    ∧ (railOutput 6 + 1 = rise.hub.power.en ∧ rise.hub.power.stepAt + ms 10 ≤ (rise.at (ms 10)).now ∧ 1 < rise.hub.power.en)
    ∧ (railOutput 0 + 1 = Power.reset.en ∧ Power.reset.seq = 1 ∧ Power.reset.good = [] ∧ Power.reset.wakes = 0)
    ∧ ((p id).hub.mode = .hub ∧ (p id).hub.power.seq = 0 ∧ 1 < (p id).hub.power.en)
    ∧ ((p id).modHub (fun h => { h with fuse := ⟨0, false, some (0, 0)⟩ })).hub.fuse.burn.isSome = true ∧ (p id).hub.fuse.burn = none := by
  decide +kernel

/-! ## Modes and pairs -/

def moving (x : RMode) (t : Trans) : State := live (fun r => { r with mode := x, trans := some t }) []

theorem witness_ModeChanges :
    let want := fun y => (⟨y, false, false, 0⟩ : Trans)
    ((inMode .run).realm 0).trans = none
    ∧ (∀ x ∈ [(RMode.run, RMode.safe), (.safe, .run), (.safe, .active), (.safe, .standby), (.run, .maintenance), (.safe, .maintenance),
          (.bringUp, .run), (.active, .run), (.standby, .run), (.run, .active), (.bringUp, .active), (.run, .standby),
          (.takeover, .standby), (.bringUp, .standby), (.maintenance, .bringUp)],
        let r := (moving x.1 (want x.2)).realm 0
        r.trans = some (want x.2) ∧ r.mode = x.1 ∧ r.safeDue = none)
    ∧ (let r := (moving .run ⟨.dormant, true, true, 0⟩)
       (r.realm 0).trans = some ⟨.dormant, true, true, 0⟩ ∧ 0 + ms 2 ≤ (r.at (ms 2)).now ∧ (∀ p, p < 16 → portState r 0 p = 0)
         ∧ HubQuiet r ∧ r.hub.posted = [] ∧ loadState r 0 = 0) := by
  unfold HubQuiet; decide +kernel

/-- Realm 0 paired with 10.0.0.9, its referee's tasks disabled. -/
def pairedIn (x : RMode) (f : PairSt → PairSt) : State :=
  live (fun r => { r with mode := x, pair := f r.pair, objs := [(o30_PAIR_MODE, 1), (o30_PARTNER_ADDRESS, 0x0A000009)] }) []
/-- Realm 0 as the referee of 10.0.0.7, active, and 10.0.0.9, standby. -/
def referee (f : PairSt → PairSt) : State :=
  live (fun r => { r with pair := f r.pair, objs := [(o30_REFEREE_ENABLE, 1), (o30_REFEREE_ACTIVE, 0x0A000007),
                                                     (o30_REFEREE_STANDBY, 0x0A000009)] }) []
def beacon (role frame take : Nat) : List Byte :=
  message 5 0 1 [⟨0x84, 0, oidOf 0 o30_HEALTH, beaconBody ⟨role, 3, 0, frame, 1, 0, 0, take, 0, 0⟩⟩] none

theorem witness_PairsTakeOver_beacons :
    let s := fun x => pairedIn x (fun p => { p with takeFrame := 3, last := [(0x0A000009, 2)] })
    let a := s .active
    let r := referee (fun p => { p with refTake := some (0, 0) })
    let late := (referee (fun p => { p with refA := [(0, role2)] })).at (sec 1)
    (sendsBeacons a 0 = true ∧ (a.realm 0).pair.sentWin = 0 ∧ sendsBeacons (s .run) 0 = false)
    ∧ ((State.reset.realm 0).bus.keeper = false ∧ watched a 0 0x0A000001 = false ∧ beaconValid a 0 [] = false)
    ∧ (∀ b ∈ [beacon 3 2 0, beacon 1 9 9, beacon 0 2 1], (a.realm 0).bus.keeper = true ∧ beaconValid a 0 b = true
        ∧ tget 0 (a.realm 0).pair.last 0x0A000009 ≤ (beaconOf (slice b 24 48)).frame)
    ∧ (beaconOf (slice (beacon 1 1 9) 24 48)).frame < tget 0 (a.realm 0).pair.last 0x0A000009
    ∧ (paired a 0 = true ∧ 0x0A000009 = a.onat 0 o30_PARTNER_ADDRESS ∧ a.onat 0 o30_REFEREE_ENABLE ≠ 1)
    ∧ ((beaconOf (slice (beacon 3 2 0) 24 48)).role = 3 ∧ (beaconOf (slice (beacon 3 2 0) 24 48)).take ≤ a.frameNo 0)
    ∧ ((beaconOf (slice (beacon 1 9 9) 24 48)).role = 1 ∧ 3 < (beaconOf (slice (beacon 1 9 9) 24 48)).take)
    ∧ (paired r 0 = false ∧ r.onat 0 o30_REFEREE_ENABLE = 1 ∧ 0x0A000009 = r.onat 0 o30_REFEREE_STANDBY
      ∧ 0x0A000009 ≠ r.onat 0 o30_REFEREE_ACTIVE ∧ beaconValid r 0 (beacon 1 9 9) = true)
    ∧ ((late.realm 0).pair.refTake = none ∧ (late.realm 0).pair.refA = (0, role2) :: [] ∧ role2.role ≠ 0
      ∧ 0 + ms (late.onat 0 o30_BEACON_TIMEOUT) < late.now ∧ (beaconOf (slice (beacon 0 2 1) 24 48)).health &&& 0x3FD = 0) := by
  decide +kernel

theorem witness_PairsTakeOver :
    let s := pairedIn .standby (fun p => { p with takeReq := some 0 })
    let begun := (s.modRealm 0 (fun r => { r with mode := .takeover })).modFrame 0 (fun f => { f with number := 2 })
    let active := pairedIn .active id
    let ready := (pairedIn .standby id).modFrame 0 (fun f => { f with stA := 4 })
    let r := referee (fun p => { p with refTake := some (4, 0) })
    (paired s 0 = true ∧ (s.realm 0).pair.lost = false ∧ (s.realm 0).pair.since + ms (s.onat 0 o30_BEACON_TIMEOUT) ≤ (s.at (sec 1)).now)
    ∧ ns 199 < ns 200 ∧ ns 200 ≤ ns 200 ∧ ns 999 < us 1 ∧ (State.reset.realm 0).mode = .dormant
    ∧ (devicePartner s 0 = none ∧ (s.realm 0).mode ≠ .dormant ∧ (s.realm 0).mode = .standby)
    ∧ imageReady s 0 = false ∧ imageReady ready 0 = true
    ∧ ((active.realm 0).mode = .active ∧ (active.realm 0).pair.activeAt + ms 100 ≤ (active.at (ms 100)).now
      ∧ (active.at 0).now < (active.realm 0).pair.activeAt + ms 100)
    ∧ (active.realm 0).pair.takeReq = none
    ∧ ((s.realm 0).pair.takeReq = some 0 ∧ s.frameNo 0 < 0 + 1 ∧ (s.modFrame 0 (fun f => { f with number := 1 })).frameNo 0 = 0 + 1)
    ∧ ((begun.realm 0).mode = .takeover ∧ 0 + 2 ≤ begun.frameNo 0 ∧ (begun.realm 0).safeDue = none ∧ (begun.realm 0).trans.filter (·.stop) = none
      ∧ ((begun.modRealm 0 (fun r => { r with safeDue := some 2 })).realm 0).safeDue = some 2)
    ∧ ((r.realm 0).pair.refTake = some (4, 0) ∧ r.onat 0 o30_REFEREE_ENABLE = 1 ∧ 0 + ms 1 ≤ (r.at (ms 1)).now ∧ 4 < 5) := by
  decide +kernel

/-- Both realms of a device that are paired with each other. -/
theorem witness_PairsTakeOver_device :
    let s := pairedIn .standby id
    let s := (s.modRealm 0 (fun r => { r with objs := [(o30_PAIR_MODE, 1), (o30_PARTNER_ADDRESS, 5), (o24_IP_ADDRESS, 7)] })).modRealm 1
      (fun r => { r with mode := .active, objs := [(o30_PAIR_MODE, 1), (o30_PARTNER_ADDRESS, 7), (o24_IP_ADDRESS, 5)] })
    let s := s.modHub (fun h => { h with ready := true })
    devicePartner s 0 = some 1 := by
  decide +kernel

/-! ## The invariant -/

theorem fore_ok (k : Nat) : TileOk (tget Tile.reset [(0, fore)] k) := by
  have h : ∀ x : Tile, x.regs = Regs.reset → x.flight = [] → TileOk x := by
    intro x hr hf
    unfold TileOk
    rw [hr, hf]
    refine ⟨?_, by unfold lcLegal; decide, by unfold lcLegal; decide, by simp⟩
    unfold sclLegal rdScl
    simp only [Regs.reset]
    decide
  by_cases hk : k = 0
  · subst hk; exact h _ rfl rfl
  · exact h _ (by simp [tget, Ne.symm hk, Tile.reset]) (by simp [tget, Ne.symm hk, Tile.reset])

theorem tile_reset_ok : TileOk Tile.reset := by
  have h := fore_ok 1
  simpa [tget] using h

theorem witness_TileStepKeepsBlockOk :
    let s : State := { tiled fore id with pending := [.halt tile1] }
    s.pending = .halt tile1 :: [] ∧ tileCmd (.halt tile1) = true ∧ BlockOk s ∧ ∃ t, step s = .next t := by
  refine ⟨rfl, rfl, ⟨?_, ?_⟩, ?_⟩
  · unfold MemOk; decide
  · intro m k
    match m with
    | 0 => exact fore_ok k
    | 1 => exact tile_reset_ok
    | 2 => exact tile_reset_ok
    | 3 => exact tile_reset_ok
  · have h : (match step { tiled fore id with pending := [.halt tile1] } with | .next _ => true | _ => false) = true := by
      decide +kernel
    split at h
    · rename_i t e; exact ⟨t, e⟩
    · exact absurd h (by decide)

/-! ## Figures that the manual works out -/

/-- 08 after R276. -/
theorem test_residue : res32 0x100 = 1 ∧ res32 0xFFFFFFFF = 254 ∧ res32 0x80000000 = 127 := by decide
/-- 08 Table 8-3: no rounding, a tie at an even value, a tie at an odd one. -/
theorem test_convert :
    convert (7 * 2 ^ 56 + 2 ^ 29) 39 2 false true false = ⟨⟨0x38000001, 57⟩, false, false⟩
    ∧ convert (7 * 2 ^ 56 + 2 ^ 29) 39 1 false true false = ⟨⟨0x1C000000, 28⟩, false, false⟩
    ∧ convert (7 * 2 ^ 29) 224 1 false true false = ⟨⟨4, 4⟩, false, false⟩ := by decide +kernel
/-- 09 after R309. -/
theorem test_port_word : (convertWord 24 (mkLane 0x12345680)).lane.data = 0x12345600
    ∧ (convertWord 24 (mkLane 0x7FFFFFC0)).lane.data = 0x7FFFFF00 := by decide +kernel
/-- 04 after R140: six vectors of delay at word 0x40. -/
theorem test_modulo_update : nextAddr 0x54 4 24 = 0x40 := by decide +kernel
/-- 06 after R218: a send from −10.00 dB to 0.00 dB in 480 samples. -/
theorem test_ramp_record : gainCode (-1000) = -94975217 ∧ gainCode 0 = -67108864
    ∧ (mkRec 5 480 (Quad.all ⟨false, gainCode (-1000), gainCode 0, 0⟩)).d.q0 = 58054
    ∧ (mkRec 5 480 (Quad.all ⟨false, gainCode (-1000), gainCode 0, 0⟩)).rm.q0 = 433 := by decide +kernel
/-- 02, the worked example of the Governor: 880 ps with a guard of 4.00% publishes 916 ps. -/
theorem test_guard : tgOf 880 400 = 916 := by decide
/-- 00 and 13: the send from strip 5 to bus 5 in realm 2, and the gain of EQ band 2 of strip 300 in realm 3. -/
theorem test_object_ids : objOid 2 ⟨0x60, 0x285, 1⟩ = 0x26002851 ∧ objOid 3 ⟨0x40, 0x92C, 2⟩ = 0x340092C2 := by decide
/-- 06: 0 dB as a Q5.27 coefficient has the base-2 logarithm −4. -/
theorem test_log2 : log2Word 0x08000000 = -67108864 ∧ exp2Word (-67108864) = 0x08000000 := by decide +kernel

/-! ## Lanes, by hand from the rules -/

/-- 05: the sum limited with SAT, modulo 2^32 without; the residue goes with the word. -/
theorem test_add_limits : (addLane false true (mkLane 0x7FFFFFFF) (mkLane 1)).lane = mkLane 0x7FFFFFFF
    ∧ (addLane false true (mkLane 0x7FFFFFFF) (mkLane 1)).sat = true
    ∧ (addLane false false (mkLane 0x7FFFFFFF) (mkLane 1)).lane = mkLane 0x80000000 := by decide +kernel
theorem test_sub_wraps : (addLane true false (mkLane 0x80000000) (mkLane 1)).lane = mkLane 0x7FFFFFFF := by decide +kernel
/-- A flipped bit of a source poisons the lane and is counted. -/
theorem test_add_damaged : (addLane false true ⟨3, res32 2⟩ (mkLane 1)).lane.res = 0xFF
    ∧ (addLane false true ⟨3, res32 2⟩ (mkLane 1)).tally = true := by decide +kernel
theorem test_abs_most_negative : (absLane (mkLane 0x80000000)).lane = mkLane 0x7FFFFFFF := by decide +kernel

end Sys2Proof.Tests
end

section
/-!
PROOFS. The `M` slot's products (04 R144, R159, R160; 08 R282): residues of sums and products, one lane of `MUL`, `MAC` and `MSU`,
and how an accumulator result issues.
-/
namespace Sys2Proof.Machine

/-! ## Residues modulo 255 (08 R276, R278) -/

theorem rI_resSum_emod (v : Int) : rI (resSum v) % 255 = v % 255 := by
  have hlt : resInt v < 2 ^ 8 := by unfold resInt; omega
  rw [rI, resSum, BitVec.toNat_ofNat, Nat.mod_eq_of_lt hlt, resInt, Int.toNat_of_nonneg (Int.emod_nonneg v (by decide))]
  exact Int.emod_emod_of_dvd v (Int.dvd_refl 255)

/-- The residue unit computes modulo 255. -/
theorem resSum_congr {v w : Int} (h : v % 255 = w % 255) : resSum v = resSum w := by
  rw [resSum, resSum, resInt, resInt, h]

/-- A lane that passes its check carries the residue of its word. -/
theorem laneOk_emod {l : Lane} (h : laneOk l = true) : rI l.res % 255 = l.data.toInt % 255 := by
  simp only [laneOk, Bool.and_eq_true, beq_iff_eq] at h
  rw [h.2]
  exact rI_resSum_emod _

theorem accOk_emod {l : AccLane} (h : accOk l = true) : rI l.res % 255 = l.data.toInt % 255 := by
  simp only [accOk, Bool.and_eq_true, beq_iff_eq] at h
  rw [h.2]
  exact rI_resSum_emod _

/-- Two lanes that pass their checks: the product of their residues is that of their words. -/
theorem laneOk_mul_emod {a b : Lane} (ha : laneOk a = true) (hb : laneOk b = true) :
    rI a.res * rI b.res % 255 = a.data.toInt * b.data.toInt % 255 := by
  rw [Int.mul_emod, laneOk_emod ha, laneOk_emod hb, ← Int.mul_emod]

/-- The wrap of an accumulator is a multiple of 2^80, which leaves the remainder 1 modulo 255: less the wrap, a residue of the exact
value is one of the stored word (04 R160). -/
theorem resSum_less_wrap {v r : Int} (h : r % 255 = v % 255) :
    resSum (r - (v - (BitVec.ofInt 80 v).toInt) / 2 ^ 80) = res80 (BitVec.ofInt 80 v) := by
  obtain ⟨q, hq⟩ : (2 ^ 80 : Int) ∣ v - v.bmod (2 ^ 80) := Int.dvd_self_sub_bmod
  have hw : (BitVec.ofInt 80 v).toInt = v.bmod (2 ^ 80) := BitVec.toInt_ofInt v
  refine resSum_congr ?_
  rw [hw, hq, Int.mul_ediv_cancel_left q (by decide)]
  omega

/-- A product of two words fits an accumulator lane (04 R159). -/
theorem product_fits (a b : BitVec 32) : (BitVec.ofInt 80 (a.toInt * b.toInt)).toInt = a.toInt * b.toInt := by
  have hle : a.toInt * b.toInt ≤ 2 ^ 62 := BitVec.toInt_mul_toInt_le
  have hge : -(2 ^ 62) ≤ a.toInt * b.toInt := BitVec.le_toInt_mul_toInt
  exact BitVec.toInt_ofInt_eq_self (by decide) (by omega) (by omega)

/-! ## One lane -/

/-- A derived residue that agrees with the data passes its check. -/
theorem derivedAcc_laneIs {w : BitVec 80} {r : BitVec 8} {ok : Bool} (tally : Bool) (h : ok = true → r = res80 w) :
    AccLaneIs ok w (derivedAcc w r ok tally).lane := by
  cases ok with
  | false => rfl
  | true =>
    rw [h rfl]
    simp only [AccLaneIs, derivedAcc, beq_self_eq_true, if_true, mkAcc]

theorem mulLane_laneIs (a b : Lane) :
    AccLaneIs (laneOk a && laneOk b) (BitVec.ofInt 80 (a.data.toInt * b.data.toInt)) (mulLane a b).lane := by
  refine derivedAcc_laneIs _ fun h => ?_
  rw [Bool.and_eq_true] at h
  rw [res80, product_fits]
  exact resSum_congr (laneOk_mul_emod h.1 h.2)

theorem macLane_laneIs (neg : Bool) (c : AccLane) (a b : Lane) :
    AccLaneIs (laneOk a && laneOk b && accOk c)
      (BitVec.ofInt 80 (if neg then c.data.toInt - a.data.toInt * b.data.toInt else c.data.toInt + a.data.toInt * b.data.toInt))
      (macLane neg c a b).lane := by
  refine derivedAcc_laneIs _ fun h => ?_
  simp only [Bool.and_eq_true] at h
  obtain ⟨⟨ha, hb⟩, hc⟩ := h
  refine resSum_less_wrap ?_
  cases neg with
  | false =>
    show (rI c.res + rI a.res * rI b.res) % 255 = _
    rw [Int.add_emod, accOk_emod hc, laneOk_mul_emod ha hb, ← Int.add_emod]
    rfl
  | true =>
    show (rI c.res - rI a.res * rI b.res) % 255 = _
    rw [Int.sub_emod, accOk_emod hc, laneOk_mul_emod ha hb, ← Int.sub_emod]
    rfl

/-- The lane of the second factor: the one of the same number, or lane `BL` with `BB` (05 Table 5-3). -/
def laneOfB (f : MulF) (i : LaneId) : LaneId := if f.bb then f.bl else i

theorem factorB_eq (f : MulF) (v : Vec) (i : LaneId) : factorB f v i = v.get (laneOfB f i) := by
  unfold factorB laneOfB
  split <;> rfl

/-! ## Issuing an accumulator result -/

theorem tallyTile_along (s : State) (m : RealmId) (k : TileId) (n : Nat) : Along m k [tallyKey k] s (tallyTile s m k n) := by
  unfold tallyTile
  split
  · exact (Along.refl m k [] s fun _ _ => rfl).mono fun _ hj => absurd hj List.not_mem_nil
  · exact bump_along s m k _ n

theorem tallyTile_mem (s : State) (m j : RealmId) (k n : Nat) : (tallyTile s m k n).mem j = s.mem j := by
  unfold tallyTile
  split <;> rfl

theorem tallyTile_tile (s : State) (m j : RealmId) (k n i : Nat) : (tallyTile s m k n).tile j i = s.tile j i := by
  unfold tallyTile
  split
  · rfl
  · exact bump_tile _ _ _ _ _ _

/-- An accumulator result of an operation that issues joins those in flight, and only TALLY_TILE counts. -/
theorem issueAcc_sends {e : TEv} {s : State} (h : Issues e .m s) (d : Fin 8) (q : Quad AccOut) :
    Sends e .m 3 (.acc d (accVec q)) [tallyKey e.k] s (issueAcc (issueState e .m s) e.m e.k d q) := by
  refine Along.issued ?_ ?_ ?_
  · refine (((issueState_along e .m s).trans (modTile_along _ _ _ _)).trans (tallyTile_along _ _ _ _)).mono fun j hj => ?_
    simp only [List.append_nil, List.mem_append] at hj ⊢
    exact hj.symm
  · rw [issueAcc, tallyTile_mem, modTile_mem, issueState_mem]
  · rw [issueAcc, tallyTile_tile, modTile_same, issueState_tile e .m s h]
    rfl

/-- A result for an accumulator, its lanes as `P` says; the counterpart of `SendsV`. -/
def SendsAcc (e : TEv) (d : Fin 8) (P : LaneId → AccLane → Prop) (s t : State) : Prop :=
  ∃ w : Acc, (∀ i, P i (w.get i)) ∧ Sends e .m 3 (.acc d w) [tallyKey e.k] s t

/-- An `M`-slot operation whose accumulator lanes `g` computes from the tile: opening the word changes none of what `g` reads. -/
theorem tileOp_sendsAcc {e : TEv} {s : State} (h : Issues e .m s) (d : Fin 8) (g : Tile → Quad AccOut)
    (hg : g (wordTile (s.tile e.m e.k) .m (s.tile e.m e.k).flight) = g (s.tile e.m e.k)) {P : LaneId → AccLane → Prop}
    (hP : ∀ i, P i ((g (s.tile e.m e.k)).get i).lane) :
    ∃ t, tileOp e .m s (fun u => issueAcc u e.m e.k d (g (u.tile e.m e.k))) = .next t ∧ SendsAcc e d P s t := by
  refine ⟨_, tileOp_issues e .m s _ h, accVec (g (s.tile e.m e.k)), fun i => ?_, ?_⟩
  · rw [accVec, Quad.get_map]
    exact hP i
  · rw [← hg, ← issueState_tile e .m s h]
    exact issueAcc_sends h d _

/-- `MUL` writes the exact product (04 R159). -/
theorem mul_sendsAcc {e : TEv} {s : State} (h : Issues e .m s) (f : MulF) :
    Answers (.mul e f) s (SendsAcc e f.d (fun i => AccLaneIs (vok s e f.a i && vok s e f.b (laneOfB f i))
      (BitVec.ofInt 80 (vint s e f.a i * vint s e f.b (laneOfB f i)))) s) := by
  refine tileOp_sendsAcc h f.d
    (fun x => (srcV x.regs f.a).imap (fun i a => mulLane a (factorB f (srcV x.regs f.b) i))) rfl fun i => ?_
  rw [Quad.get_imap, factorB_eq]
  exact mulLane_laneIs _ _

theorem exec_accumulate (e : TEv) (f : MulF) (neg : Bool) (s : State) :
    exec (if neg then .msu e f else .mac e f) s = accumulate e f neg s := by
  cases neg <;> rfl

/-- The sum of `MAC`, or the difference of `MSU`, onto lane `i` of the value ahead (04 R144, R159). -/
def accumulated (neg : Bool) (e : TEv) (f : MulF) (s : State) (i : LaneId) : Int :=
  let c := ((accAhead (s.tile e.m e.k) f.d).get i).data.toInt
  let p := vint s e f.a i * vint s e f.b (laneOfB f i)
  if neg then c - p else c + p

theorem accumulate_sendsAcc {e : TEv} {s : State} (h : Issues e .m s) (f : MulF) (neg : Bool) :
    Answers (if neg then .msu e f else .mac e f) s (SendsAcc e f.d (fun i =>
      AccLaneIs (vok s e f.a i && vok s e f.b (laneOfB f i) && accOk ((accAhead (s.tile e.m e.k) f.d).get i))
        (BitVec.ofInt 80 (accumulated neg e f s i))) s) := by
  unfold Answers
  rw [exec_accumulate]
  refine tileOp_sendsAcc h f.d (fun x => (srcV x.regs f.a).imap (fun i a =>
    macLane neg ((accAhead x f.d).get i) a (factorB f (srcV x.regs f.b) i))) rfl fun i => ?_
  rw [Quad.get_imap, factorB_eq]
  exact macLane_laneIs _ _ _ _

/-- Settles O9, by the three operations: each gives its lanes, and one lemma says how they issue. -/
theorem productLanes : Obligations.ProductLanes := by
  unfold Obligations.ProductLanes
  intro e f s op h
  match op with
  | 0 =>
    obtain ⟨t, ht, w, hw, hs⟩ := mul_sendsAcc h f
    refine ⟨t, ht, w, fun i => ?_, hs⟩
    show AccLaneIs (_ && true) _ _
    rw [Bool.and_true]
    exact hw i
  | 1 => exact accumulate_sendsAcc h f false
  | 2 => exact accumulate_sendsAcc h f true

end Sys2Proof.Machine
end

section
/-!
PROOFS. The post-modify of an address register (04 R140).
-/
namespace Sys2Proof.Machine

/-- `n` is the base-2 logarithm of `len` rounded up. -/
def IsCeilLog2 (len n : Nat) : Prop := len ≤ 2 ^ n ∧ ∀ j, len ≤ 2 ^ j → n ≤ j

/-- The search finds it from a place `k` that is not past it, when its fuel reaches that far. -/
theorem ceilLog2Aux_spec (len : Nat) : ∀ fuel k, (∀ j, len ≤ 2 ^ j → k ≤ j) → len ≤ 2 ^ (k + fuel) →
    IsCeilLog2 len (ceilLog2Aux fuel len k)
  | 0, _, hk, hf => ⟨hf, hk⟩
  | fuel + 1, k, hk, hf => by
    rw [ceilLog2Aux]
    split
    next h => exact ⟨h, hk⟩
    next h =>
      refine ceilLog2Aux_spec len fuel (k + 1) (fun j hj => ?_) (by rwa [Nat.add_assoc, Nat.add_comm 1])
      exact Nat.lt_of_le_of_ne (hk j hj) fun hkj => h (hkj ▸ hj)

theorem ceilLog2_spec {len : Nat} (h : len < 65536) : IsCeilLog2 len (ceilLog2 len) :=
  ceilLog2Aux_spec len 16 0 (fun j _ => Nat.zero_le j) (Nat.le_of_lt h)

theorem ceilLog2_le_sixteen {len : Nat} (h : len < 65536) : ceilLog2 len ≤ 16 :=
  (ceilLog2_spec h).2 16 (Nat.le_of_lt h)

theorem toNat_ofInt24 (v : Int) : ((BitVec.ofInt 24 v).toNat : Int) = v % 2 ^ 24 := by
  rw [BitVec.toNat_ofInt]; omega

/-- A block of 2^n addresses that holds an address of 24 bits ends at or below 2^24. -/
theorem block_end_le {a n : Nat} (ha : a < 2 ^ 24) (hn : n ≤ 24) : a / 2 ^ n * 2 ^ n + 2 ^ n ≤ 2 ^ 24 := by
  have hpow : 2 ^ n * 2 ^ (24 - n) = 2 ^ 24 := by rw [← Nat.pow_add, Nat.add_sub_cancel' hn]
  have hq : a / 2 ^ n < 2 ^ (24 - n) := Nat.div_lt_of_lt_mul (hpow ▸ ha)
  calc a / 2 ^ n * 2 ^ n + 2 ^ n = 2 ^ n * (a / 2 ^ n + 1) := by rw [Nat.mul_add, Nat.mul_one, Nat.mul_comm]
    _ ≤ 2 ^ n * 2 ^ (24 - n) := Nat.mul_le_mul_left _ hq
    _ = 2 ^ 24 := hpow

/-- Without a length the register moves modulo 2^24. -/
theorem nextAddr_linear (a : BitVec 24) (o : Int) : ((nextAddr a o 0).toNat : Int) = ((a.toNat : Int) + o) % 2 ^ 24 :=
  toNat_ofInt24 _

/-- With a length the register stays in its buffer, which the 24 bits hold whole. -/
theorem nextAddr_modulo (a : BitVec 24) (o : Int) {len : Nat} (h0 : 0 < len) (h : len < 65536) :
    let base : Int := (a.toNat / 2 ^ ceilLog2 len * 2 ^ ceilLog2 len : Nat)
    ((nextAddr a o len).toNat : Int) = base + ((a.toNat : Int) - base + o) % (len : Int) := by
  have hend := block_end_le a.isLt (Nat.le_trans (ceilLog2_le_sixteen h) (by decide))
  have hlen : len ≤ 2 ^ ceilLog2 len := (ceilLog2_spec h).1
  rw [nextAddr, if_neg (Nat.ne_of_gt h0)]
  dsimp only
  rw [toNat_ofInt24]
  generalize a.toNat / 2 ^ ceilLog2 len * 2 ^ ceilLog2 len = b at *
  have hpos := Int.emod_nonneg ((a.toNat : Int) - b + o) (b := len) (by omega)
  have hlt := Int.emod_lt_of_pos ((a.toNat : Int) - b + o) (b := len) (by omega)
  exact Int.emod_eq_of_lt (by omega) (by omega)

/-- Settles O15: the alignment is the base-2 logarithm of the length rounded up, which the model's search finds. -/
theorem moduloStaysInBuffer : Obligations.ModuloStaysInBuffer := by
  unfold Obligations.ModuloStaysInBuffer
  intro a o len h
  constructor
  · intro h0
    subst h0
    exact nextAddr_linear a o
  · intro h0
    obtain ⟨hlen, hleast⟩ := ceilLog2_spec h
    exact ⟨ceilLog2 len, hlen, hleast, nextAddr_modulo a o h0 h⟩

end Sys2Proof.Machine
end

section
/-!
PROOFS. An operation in progress: what the state after some effects of a slot's operation still shares with the state before the
command, and what counting adds (05 R177, R200; 13 R453).
-/
namespace Sys2Proof.Machine

/-! ## Counting -/

/-- A counter counts `n` things, and is not written for none. -/
def countUp (s : State) (m : RealmId) (key n : Nat) : State := if n = 0 then s else s.bump m key n

theorem countUp_noise (s : State) (m : RealmId) (key n : Nat) : Noise m [key] s (countUp s m key n) :=
  ite_noise _ (Noise.refl m [key] s) (bump_noise s m key n)

theorem countUp_mems (s : State) (m : RealmId) (key n : Nat) : (countUp s m key n).mems = s.mems := by
  unfold countUp
  split <;> rfl

theorem countUp_counted (s : State) (m : RealmId) (key n : Nat) : Counted m key n s (countUp s m key n) := by
  unfold Counted countUp
  split
  · rfl
  · exact bump_same s m key n

/-- A counter has counted as much from an earlier state in which it reads the same. -/
theorem Counted.before {m : RealmId} {key n : Nat} {r s t : State} (h : Counted m key n s t)
    (hr : s.oget m key = r.oget m key) : Counted m key n r t := by
  unfold Counted State.onat at h ⊢
  rwa [hr] at h

/-- A counter has counted as much to a later state in which it reads the same. -/
theorem Counted.after {m : RealmId} {key n : Nat} {s t u : State} (h : Counted m key n s t)
    (hu : u.oget m key = t.oget m key) : Counted m key n s u := by
  unfold Counted State.onat at h ⊢
  rwa [hu]

/-- The counters of a tile on page 0x16 are not among the objects that fetching its word changes. -/
theorem tileCounter_not_mem_fetchKeys (s : State) (m : RealmId) (k : TileId) {j : Nat} (hlo : okey 0x16 0 0 ≤ j)
    (hhi : j < okey 0x17 0 0) : j ∉ fetchKeys s m k := by
  simp only [fetchKeys, readKeys, eventKeys, o18_CE_COUNT, o18_UE_COUNT, o18_LAST_ERROR, o11_EVENT_NEXT, o28_EVENTS_LOST, okey,
    List.mem_append, List.mem_cons, List.not_mem_nil, or_false, not_or] at hlo hhi ⊢
  omega

theorem eventKeys_subset_fetchKeys (s : State) (m : RealmId) (k : TileId) : eventKeys ⊆ fetchKeys s m k :=
  List.subset_append_right _ _

theorem illegalKey_not_mem_fetchKeys (s : State) (m : RealmId) (k : TileId) :
    o16_ILLEGAL_SLOT + 16 * k.val ∉ fetchKeys s m k :=
  tileCounter_not_mem_fetchKeys s m k (by simp only [o16_ILLEGAL_SLOT, okey]; omega) (by simp only [o16_ILLEGAL_SLOT, okey]; omega)

/-! ## An operation in progress -/

/-- State `t` within the operation of a command given in `s`: the tile is `y` so far, no memory has changed, and of the objects
only those in `ks` and the accounting of the fetch. -/
structure Runs (e : TEv) (ks : List Nat) (y : Tile) (s t : State) : Prop where
  along : Along e.m e.k (ks ++ fetchKeys s e.m e.k) (s.at e.t) t
  mem : t.mem e.m = s.mem e.m
  tile : t.tile e.m e.k = y

theorem Issues.runs {e : TEv} {sl : Slot} {s : State} (h : Issues e sl s) :
    Runs e [] (wordTile (s.tile e.m e.k) sl (s.tile e.m e.k).flight) s (issueState e sl s) :=
  ⟨issueState_along e sl s, issueState_mem e sl s, issueState_tile e sl s h⟩

section Effects
variable {e : TEv} {ks ls : List Nat} {y : Tile} {s t u : State}

theorem Runs.issued (h : Runs e ks y s t) : Issued e ks y s t := h.along.issued h.mem h.tile

theorem Runs.step (h : Runs e ks y s t) (ha : Along e.m e.k ls t u) (hm : u.mem e.m = t.mem e.m) :
    Runs e (ks ++ ls) (u.tile e.m e.k) s u := by
  refine ⟨(h.along.trans ha).mono fun j hj => ?_, hm.trans h.mem, rfl⟩
  simp only [List.mem_append] at hj ⊢
  exact or_right_comm.mp hj

theorem Runs.modTile (h : Runs e ks y s t) (f : Tile → Tile) : Runs e ks (f y) s (t.modTile e.m e.k f) := by
  have := h.step (modTile_along t e.m e.k f) rfl
  rwa [List.append_nil, modTile_same, h.tile] at this

/-- Counters, events and interrupts leave the tile as it is. -/
theorem Runs.noise (h : Runs e ks y s t) (hn : Noise e.m ls t u) (hm : u.mems = t.mems) : Runs e (ks ++ ls) y s u := by
  have hmem : ∀ j, u.mem j = t.mem j := fun j => congrArg (·.get j) hm
  have := h.step (hn.along e.k fun j _ => hmem j) (hmem e.m)
  rwa [hn.tile, h.tile] at this

theorem Runs.countUp (h : Runs e ks y s t) (key n : Nat) : Runs e (ks ++ [key]) y s (countUp t e.m key n) :=
  h.noise (countUp_noise t e.m key n) (countUp_mems t e.m key n)

theorem Runs.tallyTile (h : Runs e ks y s t) (n : Nat) : Runs e (ks ++ [tallyKey e.k]) y s (tallyTile t e.m e.k n) :=
  h.countUp (tallyKey e.k) n

/-- A counter that the operation has not touched counts from the state before the command. -/
theorem Runs.counted {key n : Nat} (h : Runs e ks y s t) (hk : key ∉ ks ++ fetchKeys s e.m e.k) (hc : Counted e.m key n t u) :
    Counted e.m key n s u :=
  hc.before (h.along.objs key hk)

end Effects

/-- When a tile issues, a command does what its operation `f` does to the opened word. -/
theorem Answers.of_tileOp {c : Instr} {e : TEv} {sl : Slot} {s : State} {f : State → State} {P : State → Prop}
    (hc : exec c s = tileOp e sl s f) (h : Issues e sl s) (hP : P (f (issueState e sl s))) : Answers c s P :=
  ⟨_, hc.trans (tileOp_issues e sl s f h), hP⟩

/-! ## Illegal slots (05 R200) -/

theorem illegalSlot_noise (s : State) (m : RealmId) (k : Nat) :
    Noise m ((o16_ILLEGAL_SLOT + 16 * k) :: eventKeys) s (illegalSlot s m k) :=
  ((bump_noise s m _ 1).trans (irq_noise _ m 23)).trans (raiseOnce_noise _ m _ _ _ _)

theorem illegalSlot_mems (s : State) (m : RealmId) (k : Nat) : (illegalSlot s m k).mems = s.mems :=
  raiseOnce_mems _ m _ _ _ _

theorem illegalSlot_counted (s : State) (m : RealmId) (k : TileId) :
    Counted m (o16_ILLEGAL_SLOT + 16 * k.val) 1 s (illegalSlot s m k) := by
  have hk : o16_ILLEGAL_SLOT + 16 * k.val ∉ eventKeys := fun he =>
    illegalKey_not_mem_fetchKeys s m k (eventKeys_subset_fetchKeys s m k he)
  exact (countUp_counted s m (o16_ILLEGAL_SLOT + 16 * k.val) 1).after
    (((irq_noise _ m 23).trans (raiseOnce_noise _ m _ _ _ _)).objs _ hk)

/-- The slot executes as `NOP` and counts once in ILLEGAL_SLOT. -/
def CountsIllegal (e : TEv) (sl : Slot) (s t : State) : Prop :=
  SendsNone e sl ((o16_ILLEGAL_SLOT + 16 * e.k.val) :: eventKeys) s t ∧ Counted e.m (o16_ILLEGAL_SLOT + 16 * e.k.val) 1 s t

theorem nopCounted_countsIllegal {e : TEv} {sl : Slot} {s : State} (h : Issues e sl s) :
    CountsIllegal e sl s (nopCounted e (issueState e sl s)) :=
  ⟨(h.runs.noise (illegalSlot_noise _ e.m e.k) (illegalSlot_mems _ e.m e.k)).issued,
    h.runs.counted (illegalKey_not_mem_fetchKeys s e.m e.k) (illegalSlot_counted _ e.m e.k)⟩

end Sys2Proof.Machine
end

section
/-!
PROOFS. `CMP` (05 R177): its predicate bit by bit and its two counts.
-/
namespace Sys2Proof.Machine

def poisonKey (k : TileId) : Nat := o16_POISON_COMPARE + 16 * k.val

theorem poisonKey_not_mem_fetchKeys (s : State) (m : RealmId) (k : TileId) : poisonKey k ∉ fetchKeys s m k :=
  tileCounter_not_mem_fetchKeys s m k (by simp only [poisonKey, o16_POISON_COMPARE, okey]; omega)
    (by simp only [poisonKey, o16_POISON_COMPARE, okey]; omega)

theorem poisonKey_ne_tallyKey (k : TileId) : poisonKey k ≠ tallyKey k := by
  simp only [poisonKey, o16_POISON_COMPARE, tallyKey, o1A_TALLY_TILE, okey]
  omega

/-- A word of four bits from its bits. -/
theorem nibble_getLsbD (b : LaneId → Bool) (i : LaneId) :
    (BitVec.ofNat 4 ((b 0).toNat + 2 * (b 1).toNat + 4 * (b 2).toNat + 8 * (b 3).toNat)).getLsbD i.val = b i := by
  have hbits : ∀ b0 b1 b2 b3 : Bool, ∀ i : LaneId,
      (BitVec.ofNat 4 (b0.toNat + 2 * b1.toNat + 4 * b2.toNat + 8 * b3.toNat)).getLsbD i.val
        = (Quad.mk b0 b1 b2 b3).get i := by decide
  rw [hbits]
  match i with
  | 0 => rfl
  | 1 => rfl
  | 2 => rfl
  | 3 => rfl

theorem cmpWord_getLsbD (f : CmpF) (r : Regs) (i : LaneId) : (cmpWord f r).getLsbD i.val = cmpBit f r i :=
  nibble_getLsbD (cmpBit f r) i

/-- A `CMP` that reads registers `r` issues: its predicate joins the results, then its poisoned lanes count, then its tally faults. -/
def issueCmp (e : TEv) (f : CmpF) (r : Regs) (s : State) : State :=
  tallyTile (countUp (s.modTile e.m e.k (fun x => x.send .m 3 (.pred f.p (cmpWord f r)))) e.m (poisonKey e.k) (cmpPoison f r))
    e.m e.k (cmpTally f r)

theorem exec_cmp (e : TEv) (f : CmpF) (s : State) :
    exec (.cmp e f) s = tileOp e .m s (fun u => issueCmp e f (u.tile e.m e.k).regs u) := rfl

theorem issueCmp_sends {e : TEv} {s : State} (h : Issues e .m s) (f : CmpF) (r : Regs) :
    Sends e .m 3 (.pred f.p (cmpWord f r)) [poisonKey e.k, tallyKey e.k] s (issueCmp e f r (issueState e .m s)) :=
  (((h.runs.modTile _).countUp _ _).tallyTile _).issued

/-- Neither the fetch nor the tally faults touch POISON_COMPARE. -/
theorem issueCmp_counted {e : TEv} {s : State} (h : Issues e .m s) (f : CmpF) (r : Regs) :
    Counted e.m (poisonKey e.k) (cmpPoison f r) s (issueCmp e f r (issueState e .m s)) := by
  have hsent := h.runs.modTile (fun x => x.send .m 3 (.pred f.p (cmpWord f r)))
  have hcounted := hsent.counted (poisonKey_not_mem_fetchKeys s e.m e.k) (countUp_counted _ e.m (poisonKey e.k) (cmpPoison f r))
  exact hcounted.after ((tallyTile_along _ e.m e.k (cmpTally f r)).objs _ (by simpa using poisonKey_ne_tallyKey e.k))

/-- Settles O10: the word's bits are those of `cmpBit`, and the poisoned lanes are those of which a source fails its check. -/
theorem comparePredicate : Obligations.ComparePredicate := by
  unfold Obligations.ComparePredicate
  intro e f s h
  have hregs : ((issueState e .m s).tile e.m e.k).regs = (s.tile e.m e.k).regs := by rw [h.runs.tile]; rfl
  refine Answers.of_tileOp (exec_cmp e f s) h ?_
  rw [hregs]
  exact ⟨⟨cmpWord f _, cmpWord_getLsbD f _, issueCmp_sends h f _⟩, issueCmp_counted h f _⟩

end Sys2Proof.Machine
end

section
/-!
PROOFS. Loop control of the C slot (04 R149 to R151, R154; 05 R187 to R189).
-/
namespace Sys2Proof.Machine

/-! ## Operations on a loop register -/

/-- A C-slot operation on the loop register that `pick` finds: illegal where it finds none. -/
def loopOp (e : TEv) (pick : Regs → Option (Fin 2)) (f : Fin 2 → State → State) (s : State) : Result :=
  tileOp e .c s (fun u =>
    match pick (u.tile e.m e.k).regs with
    | none => nopCounted e u
    | some i => f i u)

section LoopOp
variable {c : Instr} {e : TEv} {pick : Regs → Option (Fin 2)} {f : Fin 2 → State → State} {s : State}

theorem loopOp_illegal (hc : exec c s = loopOp e pick f s) (h : Issues e .c s) (hp : pick (s.tile e.m e.k).regs = none) :
    Answers c s (CountsIllegal e .c s) := by
  refine Answers.of_tileOp hc h ?_
  simp only [h.runs.tile, wordTile, hp]
  exact nopCounted_countsIllegal h

theorem loopOp_answers (hc : exec c s = loopOp e pick f s) (h : Issues e .c s) {i : Fin 2}
    (hp : pick (s.tile e.m e.k).regs = some i) {P : State → Prop} (hP : P (f i (issueState e .c s))) : Answers c s P := by
  refine Answers.of_tileOp hc h ?_
  simp only [h.runs.tile, wordTile, hp]
  exact hP

end LoopOp

/-! ## `LOOP` -/

/-- The tile as an immediate `LOOP` that takes loop register `i` leaves it (05 R187). -/
def beginImmediate (f : LoopF) (i : Fin 2) (x : Tile) : Tile :=
  x.send .c 1 (.lc i (lcWord true f.rot (lcEnd (lcGet x.regs i)) (x.pc + 1) (f.n1.toNat + 1)))

theorem exec_loop (e : TEv) (f : LoopF) (s : State) :
    exec (.loop e f) s = loopOp e loopFree (fun i u => u.modTile e.m e.k (beginImmediate f i)) s := rfl

/-- The lane that a register `LOOP` takes its count from. -/
def countLane (f : LoopRF) (x : Tile) : Lane := (srcV x.regs (vreg f.v)).get f.lane

/-- The count is the lane's value limited to 0 to 65,536, and 0 of a lane that fails its check (05 R189). -/
theorem loopCount_eq (l : Lane) :
    (loopCount l : Int) = if laneOk l then Max.max 0 (Min.min 65536 l.data.toInt) else 0 := by
  have hnat := BitVec.toInt_eq_toNat_cond l.data
  unfold loopCount
  split
  · split
    · omega
    · split <;> omega
  · rfl

/-- The tile as a register `LOOP` that takes loop register `i` with count `n` leaves it: the loop begins, or with count 0 it is
left at once, past END (05 R189). -/
def beginLoop (f : LoopRF) (i : Fin 2) (n : Nat) (x : Tile) : Tile :=
  let w := lcGet x.regs i
  if n = 0 then { x.send .c 1 (.lc i (lcWord false (lcRotate w) f.endA.toNat (lcStart w) (lcCount w))) with nextPc := f.endA.toNat + 1 }
  else x.send .c 1 (.lc i (lcWord true f.rot f.endA.toNat (x.pc + 1) n))

theorem beginLoop_zero (f : LoopRF) (i : Fin 2) (x : Tile) : beginLoop f i 0 (wordTile x .c x.flight) =
    { wordTile x .c (joins x .c 1 (.lc i (lcWord false (lcRotate (lcGet x.regs i)) f.endA.toNat (lcStart (lcGet x.regs i))
        (lcCount (lcGet x.regs i)))) x.flight) with nextPc := f.endA.toNat + 1 } := rfl

theorem beginLoop_pos (f : LoopRF) (i : Fin 2) {n : Nat} (hn : n ≠ 0) (x : Tile) : beginLoop f i n (wordTile x .c x.flight) =
    wordTile x .c (joins x .c 1 (.lc i (lcWord true f.rot f.endA.toNat (x.pc + 1) n)) x.flight) := if_neg hn

theorem exec_loopRegister (e : TEv) (f : LoopRF) (s : State) :
    exec (.loopRegister e f) s = loopOp e loopFree (fun i u =>
      let l := countLane f (u.tile e.m e.k)
      (tallyTile u e.m e.k (if laneTally l then 1 else 0)).modTile e.m e.k (beginLoop f i (loopCount l))) s := rfl

theorem loopRegister_issued {e : TEv} {s : State} (h : Issues e .c s) (f : LoopRF) {i : Fin 2}
    (hfree : loopFree (s.tile e.m e.k).regs = some i) :
    Answers (.loopRegister e f) s (Issued e [tallyKey e.k] (beginLoop f i (loopCount (countLane f (s.tile e.m e.k)))
      (wordTile (s.tile e.m e.k) .c (s.tile e.m e.k).flight)) s) := by
  refine loopOp_answers (exec_loopRegister e f s) h hfree ?_
  rw [h.runs.tile]
  exact ((h.runs.tallyTile _).modTile _).issued

/-- Settles O18: by the loop register that is free, and for the register form by the count. -/
theorem loopsBegin : Obligations.LoopsBegin := by
  unfold Obligations.LoopsBegin
  intro e s h x free illegal
  have hfree : loopFree x.regs = free := rfl
  clear_value free
  cases free with
  | none =>
    exact ⟨fun f => loopOp_illegal (exec_loop e f s) h hfree, fun f => loopOp_illegal (exec_loopRegister e f s) h hfree⟩
  | some i =>
    refine ⟨fun f => loopOp_answers (exec_loop e f s) h hfree (h.runs.modTile _).issued, fun f => ?_⟩
    have hcount : (if vok s e (vreg f.v) f.lane then Max.max 0 (Min.min 65536 (vint s e (vreg f.v) f.lane)) else 0)
        = (loopCount (countLane f x) : Int) := (loopCount_eq _).symm
    obtain ⟨t, ht, hissued⟩ := loopRegister_issued h f hfree
    refine ⟨t, ht, ?_⟩
    dsimp only
    rw [hcount]
    split
    next hzero =>
      rw [Int.natCast_eq_zero.mp hzero, beginLoop_zero] at hissued
      exact hissued
    next hpos =>
      rw [beginLoop_pos f i (by simpa using hpos)] at hissued
      exact hissued

/-! ## `ENDL` -/

theorem exec_endl (e : TEv) (s : State) :
    exec (.endl e) s = loopOp e loopInner (fun i u => u.modTile e.m e.k (fun x => endLoop x i)) s := rfl

/-- What the end of an iteration leaves in flight, and the next word: a branch back or the exit, with `ROT` one more where the loop
rotates (04 R150, R154). -/
theorem endLoop_wordTile (x : Tile) (i : Fin 2) :
    let w := lcGet x.regs i
    let again := decide (1 < lcCount w)
    let fl := if lcRotate w then joins x .c 1 (.rot (x.regs.rot + 1)) x.flight else x.flight
    endLoop (wordTile x .c x.flight) i = { wordTile x .c (joins x .c 1
        (.lc i (lcWord again (lcRotate w) x.pc (lcStart w) (if again then lcCount w - 1 else lcCount w))) fl) with
      nextPc := if again then lcStart w else x.pc + 1 } := by
  by_cases hback : 1 < lcCount (lcGet x.regs i)
  · cases hrot : lcRotate (lcGet x.regs i) <;> simp [endLoop, wordTile, joins, Tile.send, hback, hrot]
  · cases hrot : lcRotate (lcGet x.regs i) <;> simp [endLoop, wordTile, joins, Tile.send, hback, hrot]

/-- Settles O19: by the loop that is innermost. -/
theorem loopsEnd : Obligations.LoopsEnd := by
  unfold Obligations.LoopsEnd
  intro e s h x inner
  have hinner : loopInner x.regs = inner := rfl
  clear_value inner
  cases inner with
  | none => exact loopOp_illegal (exec_endl e s) h hinner
  | some i =>
    refine loopOp_answers (exec_endl e s) h hinner ?_
    have hissued : Issued e [] (endLoop (wordTile x .c x.flight) i) s _ := (h.runs.modTile (fun x => endLoop x i)).issued
    rwa [endLoop_wordTile] at hissued

end Sys2Proof.Machine
end

section
/-!
PROOFS. The realm bus as its masters reach it: the places of the map (14 R475 to R478), a transaction that takes place, and what
an access to memory leaves alone.
-/
namespace Sys2Proof.Machine

/-! ## The banks of the map (14 Table 14-2) -/

theorem tilePlace_bank_le {r : Realm} {master off bank vec : Nat} {write : Bool}
    (h : tilePlace r master off write = .mem bank vec) : bank ≤ 0x30 + off / 0x100000 := by
  unfold tilePlace at h
  grind

theorem deepPlace_bank {r : Realm} {off bank vec : Nat} (h : deepPlace r off = .mem bank vec) :
    bank = 0x40 + off / 0x40000 := by
  unfold deepPlace at h
  grind

/-- The control blocks hold no memory. -/
theorem controlPlace_ne_mem (r : Realm) (master addr bank vec : Nat) (write : Bool) :
    controlPlace r master addr write ≠ .mem bank vec := by
  simp only [controlPlace]
  repeat' split
  all_goals exact Place.noConfusion

theorem fixedPlace_bank_lt {r : Realm} {master addr bank vec : Nat} {write sec : Bool}
    (h : fixedPlace r master addr write sec = .mem bank vec) : bank < 0x100 := by
  unfold fixedPlace at h
  grind [→ tilePlace_bank_le, → deepPlace_bank, controlPlace_ne_mem]

theorem place_bank_lt {r : Realm} {master addr bank vec : Nat} {write : Bool}
    (h : place r master addr write = .mem bank vec) : bank < 0x100 := by
  unfold place at h
  dsimp only at h
  split at h
  · split at h
    · split at h
      · exact fixedPlace_bank_lt h
      · exact Place.noConfusion h
    · exact Place.noConfusion h
  · exact fixedPlace_bank_lt h

/-! ## Transactions that take place -/

/-- A master that is free issues, and a transaction of which every beat reaches memory that serves it takes place. -/
theorem busTrans_performs {e : Ev} {k addr : Nat} {op : BusOp} {s : State} (h : MasterFree s e.m k)
    (hserved : ∀ p ∈ places (s.realm e.m) k addr op, (∃ bank vec, p = .mem bank vec) ∧ placeBad (s.realm e.m).bus op p = false) :
    busTrans e k addr op s = .next (perform (s.at e.t) e.m k (places (s.realm e.m) k addr op) op) := by
  obtain ⟨hwaiting, hresetting⟩ := h
  have hpriv : privAt (s.at e.t) e.m k addr op = none := by
    unfold privAt
    split
    · rfl
    · refine List.findSome?_eq_none_iff.2 fun p hp => ?_
      obtain ⟨⟨bank, vec, rfl⟩, _⟩ := hserved p hp
      rfl
  have hidle : (s.realm e.m).bus.waiting.any (fun w => w.master == k) = false := by simpa using hwaiting
  have hbad : (places (s.realm e.m) k addr op).any (placeBad (s.realm e.m).bus op) = false := by
    simpa using fun p hp => (hserved p hp).2
  have hwait : (places (s.realm e.m) k addr op).any placeWaits = false := by
    refine List.any_eq_false.2 fun p hp => ?_
    obtain ⟨⟨bank, vec, rfl⟩, _⟩ := hserved p hp
    exact Bool.false_ne_true
  unfold busTrans
  simp only [hpriv]
  simp [issue, hidle, hresetting, hbad, hwait]

theorem places_of_one_beat (r : Realm) (k addr : Nat) {op : BusOp} (h : opBeats op = 1) :
    places r k addr op = [place r k (beatAddr addr 0) (opWrites op)] := by
  simp [places, h]

/-- A transaction of one beat. -/
theorem busTrans_performs_one {e : Ev} {k addr : Nat} {op : BusOp} {s : State} {bank vec : Nat} (h : MasterFree s e.m k)
    (hone : opBeats op = 1) (hp : place (s.realm e.m) k (beatAddr addr 0) (opWrites op) = .mem bank vec)
    (hbad : placeBad (s.realm e.m).bus op (.mem bank vec) = false) :
    busTrans e k addr op s = .next (perform (s.at e.t) e.m k [.mem bank vec] op) := by
  have hplaces := places_of_one_beat (s.realm e.m) k addr hone
  rw [hp] at hplaces
  rw [← hplaces]
  refine busTrans_performs h fun p hmem => ?_
  rw [hplaces, List.mem_singleton] at hmem
  exact ⟨⟨bank, vec, hmem⟩, hmem ▸ hbad⟩

/-! ## What an access leaves alone -/

theorem BusAlone.refl (m : RealmId) (s : State) : BusAlone m [] s s :=
  ⟨rfl, rfl, fun _ _ => ⟨rfl, rfl⟩, fun _ _ => rfl, rfl⟩

section Alone
variable {m : RealmId} {ks ls : List Nat} {s t u : State}

theorem BusAlone.trans (h : BusAlone m ks s t) (g : BusAlone m ls t u) : BusAlone m (ks ++ ls) s u := by
  obtain ⟨hpending, hhub, hother, hobjs, hrealm⟩ := h
  obtain ⟨gpending, ghub, gother, gobjs, grealm⟩ := g
  refine ⟨gpending.trans hpending, by rw [ghub, hhub], fun j hj => ?_, fun j hj => ?_, ?_⟩
  · exact ⟨(gother j hj).1.trans (hother j hj).1, (gother j hj).2.trans (hother j hj).2⟩
  · rw [List.mem_append, not_or] at hj
    rw [gobjs j hj.2, hobjs j hj.1]
  · simp only [State.frame] at hrealm grealm ⊢
    rw [grealm, hrealm]

theorem BusAlone.mono (h : BusAlone m ks s t) (hl : ∀ j ∈ ks, j ∈ ls) : BusAlone m ls s t := by
  obtain ⟨hpending, hhub, hother, hobjs, hrealm⟩ := h
  exact ⟨hpending, hhub, hother, fun j hj => hobjs j fun hk => hj (hl j hk), hrealm⟩

theorem BusAlone.oget (h : BusAlone m ks s t) {j : Nat} (hj : j ∉ ks) : t.oget m j = s.oget m j :=
  h.2.2.2.1 j hj

theorem BusAlone.tile (h : BusAlone m ks s t) (i : Nat) : t.tile m i = s.tile m i := by
  obtain ⟨_, _, _, _, hrealm⟩ := h
  simp only [State.tile]
  rw [hrealm]

/-- Counters, events and interrupts of a read. -/
theorem Noise.busAlone (h : Noise m ks s t) (hmem : ∀ j, j ≠ m → t.mem j = s.mem j) : BusAlone m ks s t :=
  ⟨h.pending, h.hub, fun j hj => ⟨h.other j hj, hmem j hj⟩, h.objs, by
    have hanswers : (t.realm m).bus.answers = (s.realm m).bus.answers := by rw [h.realm]
    rw [h.frame m, hanswers]
    exact h.realm⟩

end Alone

section Answer
variable (s : State) (m : RealmId) (k : Nat) (a : BusAns)

theorem answer_realm : (answer s m k a).realm m =
    { s.realm m with bus := { (s.realm m).bus with answers := tput BusAns.none (s.realm m).bus.answers k a } } :=
  modBus_realm s m _
@[simp] theorem answer_mem (j : RealmId) : (answer s m k a).mem j = s.mem j := rfl
@[simp] theorem answer_frame : (answer s m k a).frame m = s.frame m := by simp only [State.frame, answer_realm]
@[simp] theorem answer_oget (j : Nat) : (answer s m k a).oget m j = s.oget m j := modBus_oget s m _ j
@[simp] theorem answerOf_answer : answerOf (answer s m k a) m k = a := by simp only [answerOf, answer_realm, tget_tput_same]

theorem answer_alone : BusAlone m [] s (answer s m k a) :=
  ⟨rfl, rfl, fun j hj => ⟨modRealm_ne s m j _ (Ne.symm hj), rfl⟩, fun j _ => answer_oget s m k a j, by
    rw [answer_frame, answer_realm]; rfl⟩

end Answer

section StoreVec
variable (s : State) (m : RealmId) (k bank vec : Nat)

/-- A Keeper's write to an exchange entry makes its half current, and that is all that follows from a write (03 R606). -/
theorem keeperWrite_cases : keeperWrite s m k bank vec = s ∨ k = 0 ∧ ∃ x : Nat × Nat,
    keeperWrite s m k bank vec = s.modFrame m (fun f => { f with keeperPend := f.keeperPend ++ [x] }) := by
  unfold keeperWrite
  split
  next hk =>
    split
    next x hx =>
      dsimp only
      split
      · exact .inl rfl
      · exact .inr ⟨hk.1, _, rfl⟩
    next => exact .inl rfl
  next => exact .inl rfl

theorem keeperWrite_mem (j : RealmId) : (keeperWrite s m k bank vec).mem j = s.mem j := by
  rcases keeperWrite_cases s m k bank vec with h | ⟨_, x, h⟩
  · rw [h]
  · rw [h]; rfl

theorem keeperWrite_frame (hk : k ≠ 0) : (keeperWrite s m k bank vec).frame m = s.frame m := by
  rcases keeperWrite_cases s m k bank vec with h | ⟨h, _⟩
  · rw [h]
  · exact absurd h hk

theorem keeperWrite_answerOf (j : Nat) : answerOf (keeperWrite s m k bank vec) m j = answerOf s m j := by
  rcases keeperWrite_cases s m k bank vec with h | ⟨_, x, h⟩
  · rw [h]
  · rw [h, answerOf, answerOf, modFrame_realm]

theorem keeperWrite_alone : BusAlone m [] s (keeperWrite s m k bank vec) := by
  rcases keeperWrite_cases s m k bank vec with h | ⟨_, x, h⟩
  · rw [h]; exact BusAlone.refl m s
  · rw [h]
    refine ⟨rfl, rfl, fun j hj => ⟨modRealm_ne s m j _ (Ne.symm hj), rfl⟩, fun j _ => modFrame_oget s m _ j, ?_⟩
    rw [modFrame_same, modFrame_realm]
    rfl

/-- A vector is stored for a master. -/
def storeVec (v : Vec) : State := keeperWrite (s.wrVec m bank vec v) m k bank vec

variable (v : Vec)

theorem storeVec_mem : (storeVec s m k bank vec v).mem m = putVec (s.mem m) bank vec v := by
  rw [storeVec, keeperWrite_mem, State.wrVec, setMem_same]

theorem storeVec_frame (hk : k ≠ 0) : (storeVec s m k bank vec v).frame m = s.frame m :=
  keeperWrite_frame (s.wrVec m bank vec v) m k bank vec hk

theorem storeVec_answerOf (j : Nat) : answerOf (storeVec s m k bank vec v) m j = answerOf s m j :=
  keeperWrite_answerOf (s.wrVec m bank vec v) m k bank vec j

theorem storeVec_alone : BusAlone m [] s (storeVec s m k bank vec v) := by
  have hset : BusAlone m [] s (s.wrVec m bank vec v) :=
    ⟨rfl, rfl, fun j hj => ⟨rfl, setMem_ne s m j _ (Ne.symm hj)⟩, fun _ _ => rfl, rfl⟩
  exact hset.trans (keeperWrite_alone _ m k bank vec)

end StoreVec

/-! ## Stores of the running step that come first -/

/-- No tile of the realm has a step open. -/
def NoStepOpen (s : State) (m : RealmId) : Prop := ∀ i, i < 16 → (s.tile m i).opened = false

theorem portAccess_noStepOpen {s : State} {m : RealmId} (h : NoStepOpen s m) (bank vec : Nat) (a : PortAct) :
    portAccess s m bank vec a = s := by
  unfold portAccess
  exact forN_fix 16 _ s fun i hi => by simp [h i hi]

/-- What every round keeps, the loop keeps. -/
theorem forN_keeps {α : Type} (P : α → Prop) (n : Nat) (f : Nat → α → α) (a : α) (ha : P a) (h : ∀ k b, P b → P (f k b)) :
    P (forN n f a) := by
  induction n with
  | zero => exact ha
  | succ n ih => exact h n _ ih

theorem landStore_frame (s : State) (m : RealmId) (k : Nat) (d : Dst) : (landStore s m k d).frame m = s.frame m := by
  unfold landStore
  split
  · rfl
  · dsimp only
    split
    · exact bump_frame s m _ 1 m
    · split
      · rw [modTile_frame]; rfl
      · rfl

theorem foldl_landStore_frame (m : RealmId) (k : Nat) (l : List Flight) (s : State) :
    (l.foldl (fun u f => landStore u m k f.dst) s).frame m = s.frame m := by
  induction l generalizing s with
  | nil => rfl
  | cons f l ih => exact (ih _).trans (landStore_frame s m k f.dst)

theorem portAccess_frame (s : State) (m : RealmId) (bank vec : Nat) (a : PortAct) :
    (portAccess s m bank vec a).frame m = s.frame m := by
  unfold portAccess
  refine forN_keeps (fun u => u.frame m = s.frame m) 16 _ s rfl fun k u hu => ?_
  split
  · rw [modTile_frame, foldl_landStore_frame, hu]
  · exact hu

end Sys2Proof.Machine
end

section
/-!
PROOFS. Vectors as the bus reads and writes them (07 R251, R252, R254, R255, R271, R274; 08 R283): the lanes delivered, the lanes
stored, and one lane of an atomic.
-/
namespace Sys2Proof.Machine

/-! ## One lane of an atomic -/

/-- The wrap of a word is a multiple of 2^32, which leaves the remainder 1 modulo 255: less the wrap, a residue of the exact sum is
one of the stored word (08 Table 8-2). -/
theorem resSum_less_wrap32 {v r : Int} (h : r % 255 = v % 255) :
    resSum (r - (v - (BitVec.ofInt 32 v).toInt) / 4294967296) = res32 (BitVec.ofInt 32 v) := by
  obtain ⟨q, hq⟩ : (2 ^ 32 : Int) ∣ v - v.bmod (2 ^ 32) := Int.dvd_self_sub_bmod
  have hw : (BitVec.ofInt 32 v).toInt = v.bmod (2 ^ 32) := BitVec.toInt_ofInt v
  refine resSum_congr ?_
  rw [hw]
  omega

/-- A sum with a residue of its exact value: the word limited, or modulo 2^32, with its residue; poisoned where a source fails its
check. -/
theorem addLike_laneIs {v r : Int} (sat ok tally : Bool) (h : ok = true → r % 255 = v % 255) :
    LaneIs ok (sumWord sat v) (addLike v r sat ok tally).lane := by
  cases ok with
  | false =>
    unfold addLike
    split <;> rfl
  | true =>
    have hr := h rfl
    show (addLike v r sat true tally).lane = mkLane (sumWord sat v)
    unfold addLike
    split
    next hlimited =>
      have hsat : sat = true := (Bool.and_eq_true_iff.1 hlimited).1
      simp [resSum_congr hr, sumWord, hsat]
    next hexact =>
      have hword : sumWord sat v = BitVec.ofInt 32 v := by
        unfold sumWord
        split
        next hsat => rw [show limit32 v = v by simpa [hsat] using hexact]
        next => rfl
      simp only [derived, resSum_less_wrap32 hr, hword, mkLane, beq_self_eq_true, if_true]

/-- A lane that an atomic adds to, from its kind. -/
theorem atomicLane_add {kind : Fin 3} (h : kind ≠ 2) (old : Lane) (w : BitVec 32) :
    LaneIs (laneOk old) (sumWord (kind == 1) (old.data.toInt + w.toInt)) (atomicLane kind old w) := by
  unfold atomicLane
  rw [if_neg h]
  refine addLike_laneIs _ _ _ fun hok => ?_
  have hw : rI (res32 w) % 255 = w.toInt % 255 := rI_resSum_emod w.toInt
  rw [Int.add_emod, laneOk_emod hok, hw, ← Int.add_emod]

/-! ## Lanes delivered -/

/-- The lane is delivered: its check passes, or, in memory without residues, the code delivers its vector. -/
def laneDelivered (bank : Nat) (o : Vec × CodeOut) (i : LaneId) : Bool :=
  if bankHasRes bank then laneOk (o.1.get i) else o.2 != .uncorrectable

/-- The words that a bus read answers, the lanes that it marks POISON, and what it counts in EGRESS_POISON. -/
def deliveredWords (bank : Nat) (o : Vec × CodeOut) : Quad (BitVec 32) :=
  o.1.imap fun i l => if laneDelivered bank o i then l.data else 0

def deliveredPoison (bank : Nat) (o : Vec × CodeOut) : BitVec 4 :=
  BitVec.ofNat 4 (modeBits ⟨!laneDelivered bank o 0, !laneDelivered bank o 1, !laneDelivered bank o 2, !laneDelivered bank o 3⟩)

def deliveredCount (bank : Nat) (o : Vec × CodeOut) : Nat :=
  if bankHasRes bank then laneCount fun i => !laneDelivered bank o i else 0

theorem ite_eq_mul_toNat (n : Nat) (b : Bool) : (if b then n else 0) = n * b.toNat := by
  cases b
  · rfl
  · exact (Nat.mul_one n).symm

theorem deliveredPoison_getLsbD (bank : Nat) (o : Vec × CodeOut) (i : LaneId) :
    (deliveredPoison bank o).getLsbD i.val = !laneDelivered bank o i := by
  rw [← nibble_getLsbD (fun i => !laneDelivered bank o i) i]
  simp only [deliveredPoison, modeBits, ite_eq_mul_toNat, Nat.one_mul]

theorem filter_not_length (q : Quad Bool) : (q.toList.filter fun b => !b).length = laneCount fun i => !q.get i := by
  have hlanes : q.toList = ([0, 1, 2, 3] : List LaneId).map q.get := rfl
  rw [hlanes, List.filter_map, List.length_map]
  rfl

/-- A bus read accounts for the vector's code, then counts the lanes that fail their check. -/
theorem loadLanes_eq (s : State) (m : RealmId) (bank vec : Nat) :
    let o := getVec (s.mem m) bank vec
    loadLanes s m bank vec = ((deliveredWords bank o, deliveredPoison bank o),
      countUp (s.rdVec m bank vec).2 m o1A_EGRESS_POISON (deliveredCount bank o)) := by
  intro o
  have hv : (s.rdVec m bank vec).1 = o.1 := rdVec_fst s m bank vec
  have hbad : (getVec (s.mem m) bank vec).2 = o.2 := rfl
  unfold loadLanes
  rw [hbad]
  generalize s.rdVec m bank vec = x at hv ⊢
  obtain ⟨v, u⟩ := x
  obtain ⟨w, c⟩ := o
  subst hv
  cases hres : bankHasRes bank with
  | true =>
    simp only [countUp, filter_not_length, deliveredWords, deliveredPoison, deliveredCount, laneDelivered, hres, if_true, Quad.get_map]
    rfl
  | false =>
    simp only [countUp, deliveredWords, deliveredPoison, deliveredCount, laneDelivered, hres, bne, Bool.false_eq_true, if_false]
    cases c == .uncorrectable <;> rfl

/-! ## A read and its answer -/

section Read
variable (s : State) (m : RealmId) (bank vec : Nat)

theorem rdVec_alone : BusAlone m (readKeys bank) s (s.rdVec m bank vec).2 :=
  (rdVec_noise s m bank vec).busAlone fun _ hj => rdVec_mem_ne s m bank vec (Ne.symm hj)

theorem rdVec_afterRead : (s.rdVec m bank vec).2.mem m = afterRead (s.mem m) bank vec := rdVec_mem s m bank vec

/-- A master has read the vector: its answer is the lanes delivered. -/
def readAnswered (k : Nat) : State :=
  let o := getVec (s.mem m) bank vec
  answer (countUp (s.rdVec m bank vec).2 m o1A_EGRESS_POISON (deliveredCount bank o)) m k
    ⟨[deliveredWords bank o], [deliveredPoison bank o], false⟩

variable (k : Nat)

theorem readAnswered_mem : (readAnswered s m bank vec k).mem m = afterRead (s.mem m) bank vec := by
  have hcount (u : State) (n : Nat) : (countUp u m o1A_EGRESS_POISON n).mem m = u.mem m :=
    congrArg (·.get m) (countUp_mems u m _ n)
  rw [readAnswered, answer_mem, hcount, rdVec_afterRead]

theorem readAnswered_frame : (readAnswered s m bank vec k).frame m = s.frame m := by
  rw [readAnswered, answer_frame, (countUp_noise _ m _ _).frame, (rdVec_noise s m bank vec).frame]

theorem readAnswered_alone : BusAlone m (o1A_EGRESS_POISON :: readKeys bank) s (readAnswered s m bank vec k) := by
  have hcount (u : State) (n : Nat) : BusAlone m [o1A_EGRESS_POISON] u (countUp u m o1A_EGRESS_POISON n) :=
    (countUp_noise u m _ n).busAlone fun j _ => congrArg (·.get j) (countUp_mems u m _ n)
  refine (((rdVec_alone s m bank vec).trans (hcount _ _)).trans (answer_alone _ m k _)).mono fun j hj => ?_
  simp only [List.append_nil, List.mem_append, List.mem_singleton] at hj
  exact List.mem_cons.2 hj.symm

/-- EGRESS_POISON is not among the objects that the code's accounting changes. -/
theorem egressKey_not_mem_readKeys {bank : Nat} (hbank : bank < 0x100) : o1A_EGRESS_POISON ∉ readKeys bank := by
  simp only [readKeys, eventKeys, o1A_EGRESS_POISON, o18_CE_COUNT, o18_UE_COUNT, o18_LAST_ERROR, o11_EVENT_NEXT, o28_EVENTS_LOST, okey,
    List.mem_append, List.mem_cons, List.not_mem_nil, or_false, not_or]
  omega

variable {bank}

theorem readAnswered_delivered (hbank : bank < 0x100) :
    Delivered m k (getVec (s.mem m) bank vec) bank s (readAnswered s m bank vec k) := by
  refine ⟨⟨_, _, answerOf_answer _ m k _, fun i => ⟨Quad.get_imap _ _ i, deliveredPoison_getLsbD bank _ i⟩⟩, ?_⟩
  have hcounted := countUp_counted (s.rdVec m bank vec).2 m o1A_EGRESS_POISON (deliveredCount bank (getVec (s.mem m) bank vec))
  exact (hcounted.before ((rdVec_alone s m bank vec).oget (egressKey_not_mem_readKeys hbank))).after (answer_oget _ m k _ _)

end Read

/-- What follows keeps the answer and the count. -/
theorem Delivered.after {m : RealmId} {k bank : Nat} {o : Vec × CodeOut} {s t u : State} (h : Delivered m k o bank s t)
    (hans : answerOf u m k = answerOf t m k) (hcount : u.oget m o1A_EGRESS_POISON = t.oget m o1A_EGRESS_POISON) :
    Delivered m k o bank s u := by
  obtain ⟨hlanes, hcounted⟩ := h
  unfold Delivered
  rw [hans]
  exact ⟨hlanes, hcounted.after hcount⟩

/-! ## Vectors that are clean -/

theorem rdVec_clean {s : State} {m : RealmId} {bank vec : Nat} (h : CleanVec (s.mem m) bank vec) :
    s.rdVec m bank vec = ((getVec (s.mem m) bank vec).1, s) := by
  obtain ⟨hcode, _⟩ := h
  unfold State.rdVec
  generalize getVec (s.mem m) bank vec = o at hcode ⊢
  obtain ⟨v, c⟩ := o
  subst hcode
  rfl

theorem laneDelivered_clean {c : List Host.Cell} {bank vec : Nat} (h : CleanVec c bank vec) (i : LaneId) :
    laneDelivered bank (getVec c bank vec) i = true := by
  obtain ⟨hcode, hlanes⟩ := h
  unfold laneDelivered
  split
  next hres => exact hlanes hres i
  next => rw [hcode]; rfl

/-- A clean vector is delivered whole, and nothing counts. -/
theorem loadLanes_clean {s : State} {m : RealmId} {bank vec : Nat} (h : CleanVec (s.mem m) bank vec) :
    loadLanes s m bank vec = (((getVec (s.mem m) bank vec).1.map (·.data), 0), s) := by
  have hdelivered := laneDelivered_clean h
  have hcount : deliveredCount bank (getVec (s.mem m) bank vec) = 0 := by
    simp [deliveredCount, hdelivered, laneCount]
  rw [loadLanes_eq, hcount, rdVec_clean h]
  simp only [deliveredWords, deliveredPoison, hdelivered, countUp, if_true]
  rfl

/-! ## Stores -/

/-- The vector that a bus write stores: fresh lanes for whole ones, and bytes merged into the vector read otherwise. -/
def storedVec (bank : Nat) (o : Vec × CodeOut) (w : Quad (BitVec 32)) (be : BitVec 16) : Vec :=
  if be = BitVec.allOnes 16 then w.map (freshLane bank) else mergeVec bank (o.2 == .uncorrectable) o.1 w be

/-- A write of a whole vector does not read it first (07 R254). -/
def readForStore (s : State) (m : RealmId) (bank vec : Nat) (be : BitVec 16) : State :=
  if be = BitVec.allOnes 16 then s else (s.rdVec m bank vec).2

theorem busStore_eq (s : State) (m : RealmId) (k bank vec : Nat) (w : Quad (BitVec 32)) (be : BitVec 16) :
    let p := portAccess s m bank vec (.write w be)
    busStore s m k bank vec w be =
      storeVec (readForStore p m bank vec be) m k bank vec (storedVec bank (getVec (p.mem m) bank vec) w be) := by
  intro p
  have hv := rdVec_fst p m bank vec
  unfold busStore storedVec readForStore
  split
  · rfl
  · dsimp only
    rw [hv]
    rfl

theorem readForStore_alone (s : State) (m : RealmId) (bank vec : Nat) (be : BitVec 16) :
    BusAlone m (readKeys bank) s (readForStore s m bank vec be) := by
  unfold readForStore
  split
  · exact (BusAlone.refl m s).mono fun _ hj => absurd hj List.not_mem_nil
  · exact rdVec_alone s m bank vec

theorem readForStore_mem (s : State) (m : RealmId) (bank vec : Nat) (be : BitVec 16) :
    (readForStore s m bank vec be).mem m = if be = BitVec.allOnes 16 then s.mem m else afterRead (s.mem m) bank vec := by
  unfold readForStore
  split
  · rfl
  · exact rdVec_afterRead s m bank vec

theorem readForStore_frame (s : State) (m : RealmId) (bank vec : Nat) (be : BitVec 16) :
    (readForStore s m bank vec be).frame m = s.frame m := by
  unfold readForStore
  split
  · rfl
  · exact (rdVec_noise s m bank vec).frame m

/-- With every byte enabled, every lane is enabled whole. -/
theorem allOnes_nibble (i : LaneId) : (BitVec.allOnes 16).toNat / 16 ^ i.val % 16 = 15 := by
  revert i
  decide

/-- One lane stored by the four enables of its bytes (07 R254, R255). -/
theorem storedVec_get (bank : Nat) (o : Vec × CodeOut) (w : Quad (BitVec 32)) (be : BitVec 16) (i : LaneId) :
    (storedVec bank o w be).get i =
      let en := be.toNat / 16 ^ i.val % 16
      if en = 15 then freshLane bank (w.get i)
      else if o.2 = .uncorrectable then (if bankHasRes bank = true then o.1.get i else ⟨0, 0⟩)
      else if en = 0 then o.1.get i
      else freshLane bank (mergeBytes en (w.get i) (o.1.get i).data) := by
  unfold storedVec
  split
  next hall => rw [hall, Quad.get_map, allOnes_nibble, if_pos rfl]
  next => simp only [mergeVec, Quad.get_imap, beq_iff_eq]

end Sys2Proof.Machine
end

section
/-!
PROOFS. Bus reads, writes, narrow writes and atomics of memory (07 R248, R251, R252, R254, R255, R271; 08 R283).
-/
namespace Sys2Proof.Machine

/-! ## Several vectors in one transaction -/

/-- The words of the memory at a place, as a read of clean vectors answers them. -/
def placeWords (c : List Host.Cell) (p : Place) : Quad (BitVec 32) :=
  match p with
  | .mem bank vec => (getVec c bank vec).1.map (·.data)
  | _ => Quad.all 0

/-- A read of clean vectors changes nothing. -/
theorem readBeats_clean {s : State} {m : RealmId} (hquiet : NoStepOpen s m) (ps : List Place)
    (h : ∀ p ∈ ps, ∃ bank vec, p = .mem bank vec ∧ CleanVec (s.mem m) bank vec) :
    readBeats s m ps = (ps.map fun p => (placeWords (s.mem m) p, 0), s) := by
  induction ps with
  | nil => rfl
  | cons p ps ih =>
    obtain ⟨bank, vec, rfl, hclean⟩ := h p List.mem_cons_self
    have hread : readBeat s m (.mem bank vec) = ((placeWords (s.mem m) (.mem bank vec), 0), s) := by
      rw [readBeat, busLoad, portAccess_noStepOpen hquiet, loadLanes_clean hclean]
      rfl
    have hrest := ih fun q hq => h q (List.mem_cons_of_mem _ hq)
    simp only [readBeats, hread, hrest, List.map_cons]

/-- The memory after one whole vector is written at a place. -/
def storeWide (c : List Host.Cell) (p : Place) (w : Quad (BitVec 32)) : List Host.Cell :=
  match p with
  | .mem bank vec => putVec c bank vec (w.map (freshLane bank))
  | _ => c

theorem laneBe_all : laneBe 0xF = BitVec.allOnes 16 := by decide

theorem writeBeat_wide {s : State} {m : RealmId} (hquiet : NoStepOpen s m) (k bank vec : Nat) (w : Quad (BitVec 32)) :
    writeBeat s m k (.mem bank vec) w (laneBe 0xF) true = storeVec s m k bank vec (w.map (freshLane bank)) := by
  have hstore := busStore_eq s m k bank vec w (laneBe 0xF)
  simp only [portAccess_noStepOpen hquiet, readForStore, storedVec, laneBe_all, if_true] at hstore
  rw [laneBe_all]
  exact hstore

/-- Whole vectors written in turn: each is stored, and nothing else happens but what the Keeper's writes make current. -/
theorem writeBeats_wide {m : RealmId} (k : Nat) (l : List (Place × Quad (BitVec 32) × BitVec 4))
    (h : ∀ x ∈ l, (∃ bank vec, x.1 = .mem bank vec) ∧ x.2.2 = 0xF) (s : State) (hquiet : NoStepOpen s m) :
    BusAlone m [] s (writeBeats s m k l) ∧ (k ≠ 0 → (writeBeats s m k l).frame m = s.frame m)
      ∧ (writeBeats s m k l).mem m = l.foldl (fun c x => storeWide c x.1 x.2.1) (s.mem m) := by
  induction l generalizing s with
  | nil => exact ⟨BusAlone.refl m s, fun _ => rfl, rfl⟩
  | cons x l ih =>
    obtain ⟨p, w, en⟩ := x
    obtain ⟨⟨bank, vec, hp⟩, hen⟩ := h (p, w, en) List.mem_cons_self
    dsimp only at hp hen
    subst hp hen
    have halone := storeVec_alone s m k bank vec (w.map (freshLane bank))
    obtain ⟨hrest, hframe, hmem⟩ := ih (fun x hx => h x (List.mem_cons_of_mem _ hx)) (storeVec s m k bank vec (w.map (freshLane bank)))
      fun i hi => (congrArg Tile.opened (halone.tile i)).trans (hquiet i hi)
    rw [writeBeats, writeBeat_wide hquiet]
    refine ⟨halone.trans hrest, fun hk => (hframe hk).trans (storeVec_frame s m k bank vec _ hk), ?_⟩
    rw [hmem, storeVec_mem]
    rfl

/-- The beats of a write: the place, the words and the lane enables of each. -/
def writtenBeats (r : Realm) (k addr : Nat) (vecs : List (Quad (BitVec 32) × BitVec 4)) :
    List (Place × Quad (BitVec 32) × BitVec 4) :=
  (List.range vecs.length).map fun j => (place r k (beatAddr addr j) true, vecs.getD j (Quad.all 0, 0))

theorem places_zip (r : Realm) (k addr : Nat) (vecs : List (Quad (BitVec 32) × BitVec 4)) :
    (places r k addr (.write vecs)).zip vecs = writtenBeats r k addr vecs := by
  refine List.ext_getElem (by simp [places, opBeats, writtenBeats]) fun j h1 h2 => ?_
  have hj : j < vecs.length := by simpa [writtenBeats] using h2
  simp [places, opBeats, opWrites, writtenBeats, hj]

theorem writtenBeats_wide {r : Realm} {k addr : Nat} {vecs : List (Quad (BitVec 32) × BitVec 4)} (hwhole : ∀ x ∈ vecs, x.2 = 0xF)
    (hp : ∀ j, j < vecs.length → ∃ bank vec, place r k (beatAddr addr j) true = .mem bank vec) :
    ∀ x ∈ writtenBeats r k addr vecs, (∃ bank vec, x.1 = .mem bank vec) ∧ x.2.2 = 0xF := by
  intro x hx
  obtain ⟨j, hj, rfl⟩ := List.mem_map.1 hx
  have hlt := List.mem_range.1 hj
  refine ⟨hp j hlt, ?_⟩
  rw [List.getD_eq_getElem?_getD, List.getElem?_eq_getElem hlt]
  exact hwhole _ (List.getElem_mem hlt)

/-! ## The commands -/

section Commands
variable {e : Ev} {k addr : Nat} {s : State} {bank vec : Nat}

theorem exec_busRead_one (h : MasterFree s e.m k) (hp : place (s.realm e.m) k (beatAddr addr 0) false = .mem bank vec) :
    exec (.busRead e k addr 1) s = .next (readAnswered (portAccess (s.at e.t) e.m bank vec .read) e.m bank vec k) := by
  refine (busTrans_performs_one (op := .read 1) h rfl hp rfl).trans ?_
  have hload := loadLanes_eq (portAccess (s.at e.t) e.m bank vec .read) e.m bank vec
  simp only [perform, readBeats, readBeat, busLoad, hload]
  rfl

theorem exec_busRead_clean (h : MasterFree s e.m k) (hquiet : NoStepOpen s e.m) {n : Nat} (hn : 1 ≤ n) (hn' : n ≤ 16)
    (hclean : ∀ j, j < n → ∃ bank vec, place (s.realm e.m) k (beatAddr addr j) false = .mem bank vec ∧ CleanVec (s.mem e.m) bank vec) :
    exec (.busRead e k addr n) s = .next (answer (s.at e.t) e.m k
      ⟨(List.range n).map fun j => placeWords (s.mem e.m) (place (s.realm e.m) k (beatAddr addr j) false), List.replicate n 0, false⟩) := by
  have hplaces : places (s.realm e.m) k addr (.read n) =
      (List.range n).map fun j => place (s.realm e.m) k (beatAddr addr j) false := by
    have hbeats : opBeats (.read n) = n := by rw [opBeats, if_neg (by omega), if_neg (by omega)]
    rw [places, hbeats]
    rfl
  have hmem : ∀ p ∈ places (s.realm e.m) k addr (.read n), ∃ bank vec, p = .mem bank vec ∧ CleanVec (s.mem e.m) bank vec := by
    intro p hp
    obtain ⟨j, hj, rfl⟩ := List.mem_map.1 (hplaces ▸ hp)
    exact hclean j (List.mem_range.1 hj)
  refine (busTrans_performs h fun p hp => ?_).trans ?_
  · obtain ⟨bank, vec, rfl, _⟩ := hmem p hp
    exact ⟨⟨bank, vec, rfl⟩, rfl⟩
  · have hread := readBeats_clean (s := s.at e.t) hquiet _ hmem
    rw [hplaces] at hread ⊢
    simp only [perform, hread, List.map_map, Function.comp_def, List.map_const', List.length_range, at_mem]

theorem exec_busWrite_wide (h : MasterFree s e.m k) {vecs : List (Quad (BitVec 32) × BitVec 4)} (hlen : vecs.length ≤ 16)
    (hp : ∀ j, j < vecs.length → ∃ bank vec, place (s.realm e.m) k (beatAddr addr j) true = .mem bank vec) :
    exec (.busWrite e k addr vecs) s =
      .next (answer (writeBeats (s.at e.t) e.m k (writtenBeats (s.realm e.m) k addr vecs)) e.m k BusAns.none) := by
  have hexec : exec (.busWrite e k addr vecs) s = busTrans e k addr (.write (vecs.take 16)) s := rfl
  rw [hexec, List.take_of_length_le hlen, ← places_zip]
  refine busTrans_performs h fun p hmem => ?_
  obtain ⟨j, hj, rfl⟩ := List.mem_map.1 hmem
  obtain ⟨bank, vec, hplace⟩ := hp j (List.mem_range.1 hj)
  dsimp only [opWrites]
  rw [hplace]
  exact ⟨⟨bank, vec, rfl⟩, rfl⟩

theorem exec_narrowWrite (h : MasterFree s e.m k) (hp : place (s.realm e.m) k (beatAddr addr 0) true = .mem bank vec)
    (d : List Byte) (be : BitVec 16) :
    exec (.narrowWrite e k addr d be) s = .next (answer (busStore (s.at e.t) e.m k bank vec (lanesOf d) be) e.m k BusAns.none) :=
  busTrans_performs_one (op := .narrow d be) h rfl hp rfl

/-- The state after an atomic: the vector read and answered, then stored where a lane is selected. -/
def atomicDone (p : State) (m : RealmId) (k bank vec : Nat) (kind : Fin 3) (lanes : BitVec 4) (w : Quad (BitVec 32)) : State :=
  let u := readAnswered p m bank vec k
  if lanes = 0 then u else storeVec u m k bank vec (atomicVec kind lanes w (getVec (u.mem m) bank vec).1)

theorem exec_atomic (h : MasterFree s e.m k) (hp : place (s.realm e.m) k (beatAddr addr 0) true = .mem bank vec)
    (hserves : atomicBank bank = true) (kind : Fin 3) (lanes : BitVec 4) (w : Quad (BitVec 32)) :
    exec (if kind = 0 then .atomicAdd e k addr lanes w else if kind = 1 then .atomicAddS e k addr lanes w
        else .atomicSwap e k addr lanes w) s =
      .next (atomicDone (portAccess (s.at e.t) e.m bank vec (.atomic kind lanes w)) e.m k bank vec kind lanes w) := by
  have hexec : exec (if kind = 0 then .atomicAdd e k addr lanes w else if kind = 1 then .atomicAddS e k addr lanes w
      else .atomicSwap e k addr lanes w) s = busTrans e k addr (.atomic kind lanes w) s := by
    match kind with
    | 0 => rfl
    | 1 => rfl
    | 2 => rfl
  rw [hexec, busTrans_performs_one (op := .atomic kind lanes w) h rfl hp (by simp [placeBad, hserves])]
  have hload := loadLanes_eq (portAccess (s.at e.t) e.m bank vec (.atomic kind lanes w)) e.m bank vec
  simp only [perform, List.headD_cons, atomicBeat, hload]
  rfl

end Commands

section Atomic
variable (p : State) (m : RealmId) (k bank vec : Nat) (kind : Fin 3) (lanes : BitVec 4) (w : Quad (BitVec 32))

theorem atomicDone_alone :
    BusAlone m (o1A_EGRESS_POISON :: readKeys bank) p (atomicDone p m k bank vec kind lanes w) := by
  have hread := readAnswered_alone p m bank vec k
  unfold atomicDone
  split
  · exact hread
  · exact (hread.trans (storeVec_alone _ m k bank vec _)).mono fun j hj => by rwa [List.append_nil] at hj

theorem atomicDone_frame (hk : k ≠ 0) : (atomicDone p m k bank vec kind lanes w).frame m = p.frame m := by
  unfold atomicDone
  split
  · exact readAnswered_frame p m bank vec k
  · exact (storeVec_frame _ m k bank vec _ hk).trans (readAnswered_frame p m bank vec k)

theorem atomicDone_delivered {bank : Nat} (hbank : bank < 0x100) :
    Delivered m k (getVec (p.mem m) bank vec) bank p (atomicDone p m k bank vec kind lanes w) := by
  have hread := readAnswered_delivered p m vec k hbank
  unfold atomicDone
  split
  · exact hread
  · exact hread.after (storeVec_answerOf _ m k bank vec _ k) ((storeVec_alone _ m k bank vec _).oget List.not_mem_nil)

theorem atomicDone_mem_none (hl : lanes = 0) :
    (atomicDone p m k bank vec kind lanes w).mem m = afterRead (p.mem m) bank vec := by
  rw [atomicDone, if_pos hl, readAnswered_mem]

theorem atomicDone_mem (hl : lanes ≠ 0) :
    let c := afterRead (p.mem m) bank vec
    (atomicDone p m k bank vec kind lanes w).mem m = putVec c bank vec (atomicVec kind lanes w (getVec c bank vec).1) := by
  intro c
  rw [atomicDone, if_neg hl, storeVec_mem, readAnswered_mem]

/-- One lane that an atomic stores (07 R271). -/
theorem atomicVec_get (x : Vec) (i : LaneId) :
    if lanes.getLsbD i.val = true then
      (if kind = 2 then (atomicVec kind lanes w x).get i = mkLane (w.get i)
       else LaneIs (laneOk (x.get i)) (sumWord (kind == 1) ((x.get i).data.toInt + (w.get i).toInt)) ((atomicVec kind lanes w x).get i))
    else (atomicVec kind lanes w x).get i = x.get i := by
  rw [atomicVec, Quad.get_imap]
  split
  next hselected =>
    split
    next hswap => rw [hswap]; rfl
    next hadd => exact atomicLane_add hadd (x.get i) (w.get i)
  next => rfl

end Atomic

/-- Settles O42, by the kinds of transaction: what each leaves, and the lanes that it delivers or stores. -/
theorem busReachesMemory : Obligations.BusReachesMemory := by
  unfold Obligations.BusReachesMemory
  intro e k addr s h m c after quiet dest
  have hframe : ∀ bank vec a, (after bank vec a).frame m = s.frame m := fun bank vec a => portAccess_frame (s.at e.t) m bank vec a
  refine ⟨fun hquiet => portAccess_noStepOpen (s := s.at e.t) hquiet, fun bank vec hp => ?_, fun hquiet n hn hn' hclean => ?_,
    fun hquiet vecs hlen hwhole hp => ?_, fun d be bank vec hp => ?_, fun kind lanes w bank vec hp hserves => ?_⟩
  · refine ⟨_, exec_busRead_one h hp, readAnswered_alone _ m bank vec k, ?_, readAnswered_mem _ m bank vec k,
      readAnswered_delivered _ m vec k (place_bank_lt hp)⟩
    rw [readAnswered_frame, hframe]
  · exact exec_busRead_clean h hquiet hn hn' hclean
  · refine ⟨_, exec_busWrite_wide h hlen hp, ?_⟩
    obtain ⟨halone, hkept, hmem⟩ := writeBeats_wide k _ (writtenBeats_wide hwhole hp) (s.at e.t) hquiet
    refine ⟨halone.trans (answer_alone _ m k _), fun hk => (answer_frame _ m k _).trans (hkept hk), answerOf_answer _ m k _, ?_⟩
    rw [answer_mem, hmem, writtenBeats, List.foldl_map]
    rfl
  · refine ⟨_, exec_narrowWrite h hp d be, ?_⟩
    rw [busStore_eq]
    refine ⟨((readForStore_alone _ m bank vec be).trans (storeVec_alone _ m k bank vec _)).trans (answer_alone _ m k _), fun hk => ?_,
      answerOf_answer _ m k _, _, ?_, storedVec_get bank _ (lanesOf d) be⟩
    · rw [answer_frame, storeVec_frame _ m k bank vec _ hk, readForStore_frame, hframe]
    · rw [answer_mem, storeVec_mem, readForStore_mem]
  · exact ⟨_, exec_atomic h hp hserves kind lanes w, atomicDone_alone _ m k bank vec kind lanes w,
      fun hk => (atomicDone_frame _ m k bank vec kind lanes w hk).trans (hframe bank vec _),
      atomicDone_delivered _ m k vec kind lanes w (place_bank_lt hp), atomicDone_mem_none _ m k bank vec kind lanes w,
      fun hl => ⟨_, atomicDone_mem _ m k bank vec kind lanes w hl, atomicVec_get kind lanes w _⟩⟩

end Sys2Proof.Machine
end
